-- ==== Sys2Proof/Word.lean ====
section
/-! DEFINITION. The machine word and the two register widths (spec/00_scope.md R7, R11).

A register, the pc and every CSR are XLEN bits wide, XLEN being 32 or 64.  One state type serves both widths:
an XLEN-bit value is held in a 64-bit cell whose bits above XLEN-1 are 0 on RV32 (DESIGN CHOICE, log entry 1). -/

namespace Sys2Proof

/-- The cell that holds one XLEN-bit value (R11). -/
abbrev Word := BitVec 64

/-- One byte of memory (R140). -/
abbrev Byte := BitVec 8

/-- XLEN, "selected at image-load time" (R7). -/
inductive Xlen where
  | rv32
  | rv64
  deriving DecidableEq, Repr

/-- The number of bits of a register (R7). -/
def Xlen.bits : Xlen → Nat
  | .rv32 => 32
  | .rv64 => 64

end Sys2Proof
end

