-- ==== Sys2Proof/Config.lean ====
section
/-! DEFINITION. What an implementation fixes: the parameters of spec/00_scope.md R9, as plain data that the
state carries and no step changes, the values this hardware has, and the one value the spec leaves OPEN. -/

namespace Sys2Proof

/-- The privilege modes (R16, R48). -/
inductive Priv where
  | u
  | s
  | m
  deriving DecidableEq, Repr

/-- The parameters a model takes (R9).
`ASIDLEN`, the paging scheme, the A/D strategy and the number of harts are fixed by `xlen` or by the rules. -/
structure Params where
  /-- `XLEN` (R7). -/
  xlen : Xlen
  /-- `PA_BITS`: physical memory is `[0, 2^paBits)` (R8). -/
  paBits : Nat
  /-- `C_ENABLED` (R222, R390). -/
  cEnabled : Bool
  /-- `STRICT_ALIGN` (R151). -/
  strictAlign : Bool
  /-- `INITIAL_PRIV`: the mode a hart is created in (R48, R100). -/
  initialPriv : Priv
  /-- `VECTORED_SYNC` (R642). -/
  vectoredSync : Bool
  /-- `TLB_K`: the number of TLB entries of each intent (R170). -/
  tlbK : Nat
  /-- `GUARDED`: the device regions, each a base and a length in bytes (R143). -/
  guarded : List (Nat × Nat)
  deriving DecidableEq, Repr

/-- FREE VALUE. `TLB_K` is OPEN and at least 1 (R9, R170, decision D22): this hardware has `tlbExtra + 1`
entries for each intent.  The constant has no body, so no proof can see its value. Log entry 2. -/
opaque Config.tlbExtra : Nat

/-- The XLEN of the machine right after reset. DESIGN CHOICE, log entry 3: the spec leaves it to the image (R7). -/
def Config.xlen : Xlen := .rv64

/-- `INITIAL_PRIV`, M on this hardware (R9, R48). -/
def Config.initialPriv : Priv := .m

/-- The pc before a loader has written it. DESIGN CHOICE, log entry 4: "unspecified before" (R100). -/
def Config.entry : Word := 0#64

/-- The default `PA_BITS` of each width (R8). -/
def Config.paBits : Xlen → Nat
  | .rv32 => 32
  | .rv64 => 39

/-- The parameter values of this hardware at width `x` (R9). -/
def Params.hardware (x : Xlen) : Params where
  xlen := x
  paBits := Config.paBits x
  cEnabled := true
  strictAlign := false
  initialPriv := Config.initialPriv
  vectoredSync := true
  tlbK := Config.tlbExtra + 1
  guarded := []

end Sys2Proof
end

