-- ==== Sys2Proof/Machine/State.lean ====
section
/-! DEFINITION. Every piece of state the spec gives the hart (spec/10_state.md R40 to R100), and the state right after
reset.  A register, the pc and a CSR are XLEN bits in a 64-bit cell (Word.lean).  Fixed CSRs (`misa`, the four ID
registers) and views (`sstatus`, `sie`, `sip`) have no cell: Machine/CsrFile.lean computes them. -/

namespace Sys2Proof.Machine

open Sys2Proof

/-- Physical memory (R140): the bytes that are not 0, at strictly rising addresses.  An unlisted byte reads 0. -/
abbrev Memory := List Host.Cell

/-- The canonical form: addresses strictly rise, and no entry is what an unlisted byte reads as. -/
abbrev Memory.wf (m : Memory) : Prop :=
  List.Pairwise (fun c d => c.1 < d.1) m ∧ ∀ c ∈ m, c.2 ≠ 0#8

/-- The width of an LR, SC or AMO: a naturally aligned word or doubleword (R152, R154). -/
inductive Granule where
  | word
  | double
  deriving DecidableEq, Repr

/-- The reservation `(addr, size)` of an LR (R49, R450). -/
structure Reservation where
  /-- the virtual address -/
  addr : Word
  size : Granule
  deriving DecidableEq, Repr

/-- The intent of an access (R161). -/
inductive Intent where
  | fetch
  | load
  | store
  deriving DecidableEq, Repr

/-- One TLB entry (R51, R170). -/
structure TlbEntry where
  valid : Bool
  /-- `va[VALEN-1:12]` of the access that filled the entry: 20 bits on Sv32, 27 on Sv39 -/
  vpn : BitVec 27
  /-- the leaf level -/
  level : Nat
  /-- 9 bits on RV32, 16 on RV64 -/
  asid : BitVec 16
  /-- the leaf PTE's PPN: 22 bits on Sv32, 44 on Sv39 -/
  ppn : BitVec 44
  r : Bool
  w : Bool
  x : Bool
  u : Bool
  g : Bool
  a : Bool
  d : Bool
  /-- the recency stamp -/
  stamp : Nat
  deriving DecidableEq, Repr

/-- The TLB: one array for each intent, and the recency counter they share (R170, R174).  A list holds the slots
0, 1, … of its array; a slot past its end is an invalid entry (DESIGN CHOICE, log entry 8). -/
structure Tlb where
  fetch : List TlbEntry
  load : List TlbEntry
  store : List TlbEntry
  clock : Nat
  deriving DecidableEq, Repr

/-- The writable fields of `mstatus` (R80).  Every other bit of the register is fixed; `Mstatus.word`
(Machine/CsrFile.lean) puts the register together (DESIGN CHOICE, log entry 9).  MPP never holds 2 (R80), so it is a
mode. -/
structure Mstatus where
  sie : Bool
  mie : Bool
  spie : Bool
  mpie : Bool
  /-- SPP: true is S, false is U -/
  spp : Bool
  mpp : Priv
  mprv : Bool
  sum : Bool
  mxr : Bool
  deriving DecidableEq, Repr

/-- The CSR cells (R56, R80 to R90). -/
structure CsrFile where
  mstatus : Mstatus
  medeleg : Word
  mideleg : Word
  mie : Word
  mip : Word
  mtvec : Word
  stvec : Word
  mepc : Word
  sepc : Word
  mcause : Word
  scause : Word
  mtval : Word
  stval : Word
  mscratch : Word
  sscratch : Word
  satp : Word
  deriving DecidableEq, Repr

/-- The implemented CSRs: the rows of R56. -/
inductive Csr where
  | sstatus
  | sie
  | stvec
  | sscratch
  | sepc
  | scause
  | stval
  | sip
  | satp
  | mstatus
  | misa
  | medeleg
  | mideleg
  | mie
  | mtvec
  | mscratch
  | mepc
  | mcause
  | mtval
  | mip
  | mvendorid
  | marchid
  | mimpid
  | mhartid
  deriving DecidableEq, Repr

/-- The synchronous exceptions (R620). -/
inductive Exc where
  | instructionAddressMisaligned
  | instructionAccessFault
  | illegalInstruction
  | breakpoint
  | loadAddressMisaligned
  | loadAccessFault
  | storeAddressMisaligned
  | storeAccessFault
  | environmentCallFromU
  | environmentCallFromS
  | environmentCallFromM
  | instructionPageFault
  | loadPageFault
  | storePageFault
  deriving DecidableEq, Repr

/-- The level a trap is taken at (R645, R646). -/
inductive TrapTarget where
  | s
  | m
  deriving DecidableEq, Repr

/-- The state of the hart. -/
structure State where
  /-- the parameters, fixed while the hart runs (R7, R9; DESIGN CHOICE, log entry 1) -/
  params : Params
  /-- `x0` to `x31` (R40); slot 0 is never read or written (`State.reg`, `State.setReg`) -/
  regs : Vector Word 32
  /-- the program counter (R43) -/
  pc : Word
  /-- the privilege mode (R48) -/
  priv : Priv
  /-- the reservation (R49) -/
  resv : Option Reservation
  /-- `halt_requested` (R50) -/
  haltRequested : Bool
  /-- the MODEL'S OWN (log entry 16): the last step entered a trap; `step` reads it to undo the recency stamps of an
  instruction that raised (R622) -/
  trapped : Bool
  /-- the TLB (R51) -/
  tlb : Tlb
  /-- the CSR cells (R55) -/
  csr : CsrFile
  /-- physical memory (R140) -/
  mem : Memory
  deriving DecidableEq, Repr

/-- The reasons a step stops with a fault: NONE.  Every fault of this hart is an architectural trap, which is a next
state (R620, 90_conflicts.md C11: "never by terminating the run"), so no meaning ever answers `fault`. -/
inductive Fault : Type
  deriving DecidableEq, Repr

/-- The reasons an instruction has no meaning. -/
inductive Refusal where
  /-- raised by `exec` for an instruction that is not modelled yet, with its mnemonic; safe: the model stops where the
  hart goes on -/
  | notModelled (mnemonic : String)
  deriving DecidableEq, Repr

/-- What one instruction, and one step, answers. -/
abbrev Result := Host.Outcome State Fault Refusal

/-- Every CSR cell after reset (R100). -/
def CsrFile.reset : CsrFile where
  mstatus := { sie := false, mie := false, spie := false, mpie := false, spp := false, mpp := .u,
               mprv := false, sum := false, mxr := false }
  medeleg := 0#64
  mideleg := 0#64
  mie := 0#64
  mip := 0#64
  mtvec := 0#64
  stvec := 0#64
  mepc := 0#64
  sepc := 0#64
  mcause := 0#64
  scause := 0#64
  mtval := 0#64
  stval := 0#64
  mscratch := 0#64
  sscratch := 0#64
  satp := 0#64

/-- The state a hart with parameters `p` has when it is created (R100, R690). -/
def State.resetWith (p : Params) : State where
  params := p
  regs := Vector.replicate 32 0#64
  pc := Config.entry
  priv := p.initialPriv
  resv := none
  haltRequested := false
  trapped := false
  tlb := { fetch := [], load := [], store := [], clock := 0 }
  csr := CsrFile.reset
  mem := []

/-- The machine right after reset: this hardware, at the XLEN of Config.lean (R100; log entries 2, 3 and 4). -/
def State.reset : State := State.resetWith (Params.hardware Config.xlen)

end Sys2Proof.Machine
end

