-- ==== Sys2Proof/Machine/Bits.lean ====
section
/-! DEFINITION. Arithmetic at XLEN on 64-bit cells (spec/00_scope.md R10, R11). -/

namespace Sys2Proof.Machine

open Sys2Proof

/-- The XLEN-bit value of a cell: on RV32 the bits above 31 are cleared (R11). -/
def truncX : Xlen → Word → Word
  | .rv32, v => (v.setWidth 32).setWidth 64
  | .rv64, v => v

/-- `sext_n(v)`: the low `n` bits, sign-extended (R11). -/
def sextFrom (n : Nat) (v : Word) : Word := (v.setWidth n).signExtend 64

/-- `zext_n(v)`: the low `n` bits, zero-extended (R11). -/
def zextFrom (n : Nat) (v : Word) : Word := (v.setWidth n).setWidth 64

/-- An operation on XLEN-bit vectors, as an operation on cells. -/
def atXlen (x : Xlen) (f : {w : Nat} → BitVec w → BitVec w → BitVec w) (a b : Word) : Word :=
  match x with
  | .rv32 => (f (a.setWidth 32) (b.setWidth 32)).setWidth 64
  | .rv64 => f a b

/-- A comparison of XLEN-bit vectors. -/
def cmpXlen (x : Xlen) (f : {w : Nat} → BitVec w → BitVec w → Bool) (a b : Word) : Bool :=
  match x with
  | .rv32 => f (a.setWidth 32) (b.setWidth 32)
  | .rv64 => f a b

/-- A `*W` operation: 32-bit operands, the 32-bit result sign-extended (the rules common to R321 to R328 and R369 to
R373). -/
def atWord (f : {w : Nat} → BitVec w → BitVec w → BitVec w) (a b : Word) : Word :=
  (f (a.setWidth 32) (b.setWidth 32)).signExtend 64

/-- A Bool as a register value (R303). -/
def boolWord (b : Bool) : Word := if b then 1#64 else 0#64

/-- Bit `i` of a word, set from a Bool. -/
def bitAt (i : Nat) (b : Bool) : Word := if b then 1#64 <<< i else 0#64

end Sys2Proof.Machine
end

