-- ==== Sys2Proof/Machine/Memory.lean ====
section
/-! DEFINITION. Physical memory (spec/20_memory.md R140 to R143, R150): one byte, and little-endian groups of bytes. -/

namespace Sys2Proof.Machine

open Sys2Proof

/-- The byte at physical address `a`; "reads of never-written addresses return zero" (R140). -/
def Memory.read : Memory → Nat → Byte
  | [], _ => 0#8
  | (k, b) :: m, a => if k = a then b else Memory.read m a

/-- Puts a byte at `a`, keeping the canonical form: a 0 is not listed. -/
def Memory.write : Memory → Nat → Byte → Memory
  | [], a, v => if v = 0#8 then [] else [(a, v)]
  | (k, b) :: m, a, v =>
    if a < k then (if v = 0#8 then (k, b) :: m else (a, v) :: (k, b) :: m)
    else if a = k then (if v = 0#8 then m else (a, v) :: m)
    else (k, b) :: Memory.write m a v

/-- The little-endian value of the bytes at `pas`, the first the least significant (R142, R150). -/
def Memory.readLE (m : Memory) : List Nat → Word
  | [] => 0#64
  | a :: as => (Memory.readLE m as <<< 8) ||| (m.read a).setWidth 64

/-- Stores the low bytes of `v` at `pas`, the least significant at the first (R142, R150). -/
def Memory.writeLE (m : Memory) : List Nat → Word → Memory
  | [], _ => m
  | a :: as, v => Memory.writeLE (m.write a (v.setWidth 8)) as (v >>> 8)

/-- The `n` addresses from `pa` on (R142). -/
def addrRange (pa n : Nat) : List Nat := (List.range n).map (pa + ·)

/-- `GUARDED(pa)` (R143). -/
def guarded (p : Params) (pa : Nat) : Bool := p.guarded.any fun r => decide (r.1 ≤ pa) && decide (pa < r.1 + r.2)

/-- A physical byte address is accessible (R143). -/
def accessible (p : Params) (pa : Nat) : Bool := decide (pa < 2 ^ p.paBits) && !guarded p pa

end Sys2Proof.Machine
end

