-- ==== Sys2Proof/Machine/Mmu.lean ====
section
/-! DEFINITION. Address translation and the TLB (spec/20_memory.md R160 to R176): Sv32 on RV32, Sv39 on RV64.

`translate` and `accessRuns` read the state and pass the TLB along, because the TLB is all that a translation changes.
`Tlb.keepFills` says what of it survives a raise: an entry made before the fault stays, a renewed stamp does not (R160,
R622). -/

namespace Sys2Proof.Machine

open Sys2Proof

/-! ### The two schemes (R164, R168, R169) -/

/-- LEVELS -/
def levels : Xlen → Nat
  | .rv32 => 2
  | .rv64 => 3

/-- VB, the bits of one VPN field -/
def vpnBits : Xlen → Nat
  | .rv32 => 10
  | .rv64 => 9

/-- PTESIZE, in bytes -/
def pteBytes : Xlen → Nat
  | .rv32 => 4
  | .rv64 => 8

/-- `va[VALEN-1:12]` (R170) -/
def vpnOf (x : Xlen) (va : Word) : BitVec 27 :=
  match x with
  | .rv32 => (va.extractLsb' 12 20).setWidth 27
  | .rv64 => va.extractLsb' 12 27

/-- `VPN[i](va)` (R164) -/
def vpnField (x : Xlen) (i : Nat) (va : Word) : Nat := va.toNat / 2 ^ (12 + vpnBits x * i) % 2 ^ vpnBits x

/-- An Sv39 address is canonical when bits 63:39 all equal bit 38 (R164); every Sv32 address is. -/
def canonical (x : Xlen) (va : Word) : Bool :=
  match x with
  | .rv32 => true
  | .rv64 => va == sextFrom 39 va

/-- `satp.MODE ≠ Bare` (R90) -/
def satpTranslates (x : Xlen) (satp : Word) : Bool :=
  match x with
  | .rv32 => satp.getLsbD 31
  | .rv64 => satp.extractLsb' 60 4 != 0#4

/-- `satp.ASID` (R90) -/
def satpAsid (x : Xlen) (satp : Word) : BitVec 16 :=
  match x with
  | .rv32 => (satp.extractLsb' 22 9).setWidth 16
  | .rv64 => satp.extractLsb' 44 16

/-- `satp.PPN` (R90) -/
def satpPpn (x : Xlen) (satp : Word) : BitVec 44 :=
  match x with
  | .rv32 => (satp.extractLsb' 0 22).setWidth 44
  | .rv64 => satp.extractLsb' 0 44

/-- `pte.PPN` (R169) -/
def ptePpn (x : Xlen) (pte : Word) : BitVec 44 :=
  match x with
  | .rv32 => (pte.extractLsb' 10 22).setWidth 44
  | .rv64 => pte.extractLsb' 10 44

/-! The flag bits of a PTE (R169). -/

def pteV (pte : Word) : Bool := pte.getLsbD 0
def pteR (pte : Word) : Bool := pte.getLsbD 1
def pteW (pte : Word) : Bool := pte.getLsbD 2
def pteX (pte : Word) : Bool := pte.getLsbD 3
def pteU (pte : Word) : Bool := pte.getLsbD 4
def pteG (pte : Word) : Bool := pte.getLsbD 5
def pteA (pte : Word) : Bool := pte.getLsbD 6
def pteD (pte : Word) : Bool := pte.getLsbD 7

/-- `Compose(ppn, i, va)` (R168): the low VPN fields of `va` stand for the low PPN fields. -/
def compose (x : Xlen) (ppn : BitVec 44) (i : Nat) (va : Word) : Nat :=
  ppn.toNat / 2 ^ (vpnBits x * i) * 2 ^ (12 + vpnBits x * i) + va.toNat % 2 ^ (12 + vpnBits x * i)

/-! ### Privilege (R162, R166) -/

/-- `eff_priv(intent)` (R162) -/
def State.effPriv (s : State) : Intent → Priv
  | .fetch => s.priv
  | .load | .store => if s.priv = .m ∧ s.csr.mstatus.mprv = true then s.csr.mstatus.mpp else s.priv

/-- `Translating(intent)` (R162) -/
def State.translating (s : State) (it : Intent) : Bool :=
  satpTranslates s.params.xlen s.csr.satp && decide (s.effPriv it ≠ .m)

/-- `CheckPerm` (R166): true where it raises nothing. -/
def State.permitted (s : State) (it : Intent) (r w x u : Bool) : Bool :=
  !(decide (s.effPriv it = .u) && !u)
  && !(decide (s.effPriv it = .s) && u && (decide (it = .fetch) || !s.csr.mstatus.sum))
  && (match it with
      | .fetch => x
      | .load => r || (x && s.csr.mstatus.mxr)
      | .store => w)

/-! ### The walk (R165) -/

/-- How an access fails before it has an exception's name: a page fault or an access fault of its intent. -/
inductive MemFail where
  | page
  | access
  deriving DecidableEq, Repr

/-- What one page-table entry says. -/
inductive WalkStep where
  | fail (f : MemFail)
  | leaf (pte : Word)
  | pointer (base : Nat)
  deriving DecidableEq, Repr

/-- Reads and judges the entry of level `i` in the table at physical address `a`. -/
def walkStep (p : Params) (m : Memory) (va : Word) (i a : Nat) : WalkStep :=
  let pas := addrRange (a + vpnField p.xlen i va * pteBytes p.xlen) (pteBytes p.xlen)
  if !pas.all (accessible p) then .fail .access
  else
    let pte := m.readLE pas
    if !pteV pte || (!pteR pte && pteW pte) then .fail .page
    else if pteR pte || pteX pte then .leaf pte
    else .pointer ((ptePpn p.xlen pte).toNat * 4096)

/-- The loop of `Walk`, from level `i` down: the leaf and its level. -/
def walk (p : Params) (m : Memory) (va : Word) : Nat → Nat → Except MemFail (Word × Nat)
  | 0, a =>
    match walkStep p m va 0 a with
    | .fail f => .error f
    | .leaf pte => .ok (pte, 0)
    | .pointer _ => .error .page
  | i + 1, a =>
    match walkStep p m va (i + 1) a with
    | .fail f => .error f
    | .leaf pte => .ok (pte, i + 1)
    | .pointer b => walk p m va i b

/-! ### The TLB (R170 to R175) -/

/-- `T[intent]` -/
def Tlb.entries (t : Tlb) : Intent → List TlbEntry
  | .fetch => t.fetch
  | .load => t.load
  | .store => t.store

/-- Puts an array back and advances the counter (R174). -/
def Tlb.setEntries (t : Tlb) (es : List TlbEntry) : Intent → Tlb
  | .fetch => { t with fetch := es, clock := t.clock + 1 }
  | .load => { t with load := es, clock := t.clock + 1 }
  | .store => { t with store := es, clock := t.clock + 1 }

/-- The VPN bits an entry of level `level` is compared on (R171). -/
def sameVpn (x : Xlen) (level : Nat) (a b : BitVec 27) : Bool :=
  a >>> (level * vpnBits x) == b >>> (level * vpnBits x)

/-- `e` matches a lookup of `va` (R171). -/
def TlbEntry.hits (x : Xlen) (satp va : Word) (e : TlbEntry) : Bool :=
  e.valid && (e.g || e.asid == satpAsid x satp) && sameVpn x e.level e.vpn (vpnOf x va)

/-- The entry that satisfies `f` and has the largest stamp, and its slot (R171). -/
def newestHit (f : TlbEntry → Bool) : List TlbEntry → Option (Nat × TlbEntry)
  | [] => none
  | e :: es =>
    match newestHit f es with
    | none => if f e then some (0, e) else none
    | some (k, b) => if f e && decide (b.stamp < e.stamp) then some (0, e) else some (k + 1, b)

/-- The slot of the smallest stamp (R173). -/
def oldestSlot : List TlbEntry → Option (Nat × Nat)
  | [] => none
  | e :: es =>
    match oldestSlot es with
    | none => some (0, e.stamp)
    | some (k, st) => if e.stamp ≤ st then some (0, e.stamp) else some (k + 1, st)

/-- Puts `e` into the lowest invalid slot of an array of `k` slots, or over the oldest entry (R173). -/
def placeEntry (k : Nat) (e : TlbEntry) (es : List TlbEntry) : List TlbEntry :=
  match es.findIdx? (fun o => !o.valid) with
  | some i => es.set i e
  | none =>
    if es.length < k then es ++ [e]
    else
      match oldestSlot es with
      | some (i, _) => es.set i e
      | none => es

/-- `TLB_Insert` (R173). -/
def Tlb.insert (p : Params) (satp : Word) (t : Tlb) (it : Intent) (va pte : Word) (i : Nat) : Tlb :=
  t.setEntries
    (placeEntry p.tlbK
      { valid := true, vpn := vpnOf p.xlen va, level := i, asid := satpAsid p.xlen satp, ppn := ptePpn p.xlen pte,
        r := pteR pte, w := pteW pte, x := pteX pte, u := pteU pte, g := pteG pte, a := pteA pte, d := pteD pte,
        stamp := t.clock + 1 }
      (t.entries it))
    it

/-- A hit gives the entry a fresh largest stamp (R171, R174); `Tlb.keepFills` takes it back where the instruction
raises. -/
def Tlb.touch (t : Tlb) (it : Intent) (slot : Nat) (e : TlbEntry) : Tlb :=
  t.setEntries ((t.entries it).set slot { e with stamp := t.clock + 1 }) it

/-- An array after an instruction that raised: a slot that was not filled holds its old entry, with its old stamp. -/
def keepFilled : List TlbEntry → List TlbEntry → List TlbEntry
  | o :: os, e :: es => (if { e with stamp := o.stamp } = o then o else e) :: keepFilled os es
  | [], es => es
  | _ :: _, [] => []

/-- What of the TLB `new` survives a raise of the instruction that started with `old`: the entries it inserted, and
nothing else (R160, R622; DEDUCED for the slot an insertion took after a hit of the same instruction, log entry 6). -/
def Tlb.keepFills (old new : Tlb) : Tlb :=
  let t : Tlb :=
    { fetch := keepFilled old.fetch new.fetch
      load := keepFilled old.load new.load
      store := keepFilled old.store new.store
      clock := new.clock }
  if t.fetch = old.fetch ∧ t.load = old.load ∧ t.store = old.store then old else t

/-- Invalidates the entries that satisfy `f`, in the three arrays (R91, R519). -/
def Tlb.invalidate (t : Tlb) (f : TlbEntry → Bool) : Tlb :=
  let off := List.map fun e : TlbEntry => if f e then { e with valid := false } else e
  { t with fetch := off t.fetch, load := off t.load, store := off t.store }

/-- Invalidates every entry (R91, R519). -/
def Tlb.flush (t : Tlb) : Tlb := t.invalidate fun _ => true

/-! ### Translation (R163) -/

/-- The checks of a leaf found by a walk, in order: permission, misaligned superpage, A and D (R163, R167). -/
def State.leafOk (s : State) (it : Intent) (pte : Word) (i : Nat) : Bool :=
  s.permitted it (pteR pte) (pteW pte) (pteX pte) (pteU pte)
  && decide ((ptePpn s.params.xlen pte).toNat % 2 ^ (vpnBits s.params.xlen * i) = 0)
  && pteA pte && (decide (it ≠ .store) || pteD pte)

/-- `Translate(va, intent)` with the TLB `t` (R163): the TLB after it, and the physical address or the failure. -/
def State.translate (s : State) (t : Tlb) (va : Word) (it : Intent) : Tlb × Except MemFail Nat :=
  if !canonical s.params.xlen va then (t, .error .page)
  else
    match newestHit (TlbEntry.hits s.params.xlen s.csr.satp va) (t.entries it) with
    | some (slot, e) =>
      (t.touch it slot e,
        if s.permitted it e.r e.w e.x e.u then .ok (compose s.params.xlen e.ppn e.level va) else .error .page)
    | none =>
      match walk s.params s.mem va (levels s.params.xlen - 1)
          ((satpPpn s.params.xlen s.csr.satp).toNat * 4096) with
      | .error f => (t, .error f)
      | .ok (pte, i) =>
        if s.leafOk it pte i then
          (t.insert s.params s.csr.satp it va pte i, .ok (compose s.params.xlen (ptePpn s.params.xlen pte) i va))
        else (t, .error .page)

/-- One run of `n` bytes within a page: its translation, then its range check (R160). -/
def State.accessRun (s : State) (t : Tlb) (va : Word) (n : Nat) (it : Intent) : Tlb × Except MemFail (List Nat) :=
  match s.translate t va it with
  | (t', .error f) => (t', .error f)
  | (t', .ok base) =>
    if (addrRange base n).all (accessible s.params) then (t', .ok (addrRange base n)) else (t', .error .access)

/-- `Access(va, n, intent)` (R160): the physical addresses of the `n` bytes.  An access of at most 8 bytes has one run,
or two where it crosses a 4 KiB page. -/
def State.accessRuns (s : State) (va : Word) (n : Nat) (it : Intent) : Tlb × Except MemFail (List Nat) :=
  if s.translating it then
    let n0 := 4096 - va.toNat % 4096
    if n ≤ n0 then s.accessRun s.tlb va n it
    else
      match s.accessRun s.tlb va n0 it with
      | (t1, .error f) => (t1, .error f)
      | (t1, .ok pas0) =>
        match s.accessRun t1 (truncX s.params.xlen (va + BitVec.ofNat 64 n0)) (n - n0) it with
        | (t2, .error f) => (t2, .error f)
        | (t2, .ok pas1) => (t2, .ok (pas0 ++ pas1))
  else if (addrRange va.toNat n).all (accessible s.params) then (s.tlb, .ok (addrRange va.toNat n))
  else (s.tlb, .error .access)

end Sys2Proof.Machine
end

