-- ==== Sys2Proof/Syntax.lean ====
section
/-! DEFINITION. The instructions: one constructor for each mnemonic of spec/opcode_table.json (the table's two rows of
`slli`, `srli` and `srai`, one for each XLEN, are one instruction with one mnemonic), what the decoder answers when it
refuses a word, and the words themselves (spec/30_encoding.md R220 to R245). -/

namespace Sys2Proof

/-- A 5-bit register field (R223). -/
abbrev Reg := BitVec 5

/-- A 3-bit compressed register field, naming `x(8 + value)` (R42). -/
abbrev CReg := BitVec 3

/-- A 12-bit CSR index (R55). -/
abbrev CsrIndex := BitVec 12

/-- The instructions.  Every field of the encoding is kept, also the ones the machine ignores, so that `encode` gives
back the word, and a compressed instruction is not replaced by its expansion (DESIGN CHOICE, log entry 12).  An immediate is kept as the bits the encoding holds; the implied low zero bits and the extension to XLEN
are added in Machine/Operands.lean (R224, R241). -/
inductive Instr where
  -- U format: the 20 bits `imm[31:12]` (R300, R301)
  | lui (rd : Reg) (imm : BitVec 20)
  | auipc (rd : Reg) (imm : BitVec 20)
  -- I format, OP-IMM (R302 to R307)
  | addi (rd rs1 : Reg) (imm : BitVec 12)
  | slti (rd rs1 : Reg) (imm : BitVec 12)
  | sltiu (rd rs1 : Reg) (imm : BitVec 12)
  | xori (rd rs1 : Reg) (imm : BitVec 12)
  | ori (rd rs1 : Reg) (imm : BitVec 12)
  | andi (rd rs1 : Reg) (imm : BitVec 12)
  -- OP-IMM shifts; on RV32 `shamt[5]` is 0 (R308 to R310)
  | slli (rd rs1 : Reg) (shamt : BitVec 6)
  | srli (rd rs1 : Reg) (shamt : BitVec 6)
  | srai (rd rs1 : Reg) (shamt : BitVec 6)
  -- R format, OP (R311 to R320)
  | add (rd rs1 rs2 : Reg)
  | sub (rd rs1 rs2 : Reg)
  | sll (rd rs1 rs2 : Reg)
  | slt (rd rs1 rs2 : Reg)
  | sltu (rd rs1 rs2 : Reg)
  | xor (rd rs1 rs2 : Reg)
  | srl (rd rs1 rs2 : Reg)
  | sra (rd rs1 rs2 : Reg)
  | or (rd rs1 rs2 : Reg)
  | and (rd rs1 rs2 : Reg)
  -- OP-IMM-32, RV64 only (R321 to R324)
  | addiw (rd rs1 : Reg) (imm : BitVec 12)
  | slliw (rd rs1 : Reg) (shamt : BitVec 5)
  | srliw (rd rs1 : Reg) (shamt : BitVec 5)
  | sraiw (rd rs1 : Reg) (shamt : BitVec 5)
  -- OP-32, RV64 only (R325 to R328)
  | addw (rd rs1 rs2 : Reg)
  | subw (rd rs1 rs2 : Reg)
  | sllw (rd rs1 rs2 : Reg)
  | srlw (rd rs1 rs2 : Reg)
  | sraw (rd rs1 rs2 : Reg)
  -- multiply and divide (R361 to R368); the `*W` forms are RV64 only (R369 to R373)
  | mul (rd rs1 rs2 : Reg)
  | mulh (rd rs1 rs2 : Reg)
  | mulhsu (rd rs1 rs2 : Reg)
  | mulhu (rd rs1 rs2 : Reg)
  | div (rd rs1 rs2 : Reg)
  | divu (rd rs1 rs2 : Reg)
  | rem (rd rs1 rs2 : Reg)
  | remu (rd rs1 rs2 : Reg)
  | mulw (rd rs1 rs2 : Reg)
  | divw (rd rs1 rs2 : Reg)
  | divuw (rd rs1 rs2 : Reg)
  | remw (rd rs1 rs2 : Reg)
  | remuw (rd rs1 rs2 : Reg)
  -- J format: the 20 bits `imm[20:1]` (R391)
  | jal (rd : Reg) (imm : BitVec 20)
  -- (R392)
  | jalr (rd rs1 : Reg) (imm : BitVec 12)
  -- B format: the 12 bits `imm[12:1]` (R393 to R398)
  | beq (rs1 rs2 : Reg) (imm : BitVec 12)
  | bne (rs1 rs2 : Reg) (imm : BitVec 12)
  | blt (rs1 rs2 : Reg) (imm : BitVec 12)
  | bge (rs1 rs2 : Reg) (imm : BitVec 12)
  | bltu (rs1 rs2 : Reg) (imm : BitVec 12)
  | bgeu (rs1 rs2 : Reg) (imm : BitVec 12)
  -- loads (R422 to R428); `ld` and `lwu` are RV64 only
  | lb (rd rs1 : Reg) (imm : BitVec 12)
  | lh (rd rs1 : Reg) (imm : BitVec 12)
  | lw (rd rs1 : Reg) (imm : BitVec 12)
  | ld (rd rs1 : Reg) (imm : BitVec 12)
  | lbu (rd rs1 : Reg) (imm : BitVec 12)
  | lhu (rd rs1 : Reg) (imm : BitVec 12)
  | lwu (rd rs1 : Reg) (imm : BitVec 12)
  -- S format, stores (R429 to R432); `sd` is RV64 only
  | sb (rs1 rs2 : Reg) (imm : BitVec 12)
  | sh (rs1 rs2 : Reg) (imm : BitVec 12)
  | sw (rs1 rs2 : Reg) (imm : BitVec 12)
  | sd (rs1 rs2 : Reg) (imm : BitVec 12)
  -- load-reserved (R455, R456); every `.D` form is RV64 only
  | lrW (aq rl : Bool) (rd rs1 : Reg)
  | lrD (aq rl : Bool) (rd rs1 : Reg)
  -- store-conditional and read-modify-write (R457 to R478)
  | scW (aq rl : Bool) (rd rs1 rs2 : Reg)
  | scD (aq rl : Bool) (rd rs1 rs2 : Reg)
  | amoswapW (aq rl : Bool) (rd rs1 rs2 : Reg)
  | amoswapD (aq rl : Bool) (rd rs1 rs2 : Reg)
  | amoaddW (aq rl : Bool) (rd rs1 rs2 : Reg)
  | amoaddD (aq rl : Bool) (rd rs1 rs2 : Reg)
  | amoxorW (aq rl : Bool) (rd rs1 rs2 : Reg)
  | amoxorD (aq rl : Bool) (rd rs1 rs2 : Reg)
  | amoandW (aq rl : Bool) (rd rs1 rs2 : Reg)
  | amoandD (aq rl : Bool) (rd rs1 rs2 : Reg)
  | amoorW (aq rl : Bool) (rd rs1 rs2 : Reg)
  | amoorD (aq rl : Bool) (rd rs1 rs2 : Reg)
  | amominW (aq rl : Bool) (rd rs1 rs2 : Reg)
  | amominD (aq rl : Bool) (rd rs1 rs2 : Reg)
  | amomaxW (aq rl : Bool) (rd rs1 rs2 : Reg)
  | amomaxD (aq rl : Bool) (rd rs1 rs2 : Reg)
  | amominuW (aq rl : Bool) (rd rs1 rs2 : Reg)
  | amominuD (aq rl : Bool) (rd rs1 rs2 : Reg)
  | amomaxuW (aq rl : Bool) (rd rs1 rs2 : Reg)
  | amomaxuD (aq rl : Bool) (rd rs1 rs2 : Reg)
  -- CSR instructions (R492 to R494)
  | csrrw (rd rs1 : Reg) (csr : CsrIndex)
  | csrrs (rd rs1 : Reg) (csr : CsrIndex)
  | csrrc (rd rs1 : Reg) (csr : CsrIndex)
  -- and their immediate forms (R495 to R497)
  | csrrwi (rd : Reg) (uimm : BitVec 5) (csr : CsrIndex)
  | csrrsi (rd : Reg) (uimm : BitVec 5) (csr : CsrIndex)
  | csrrci (rd : Reg) (uimm : BitVec 5) (csr : CsrIndex)
  -- fences; all of their fields are ignored (R510, R511)
  | fence (fm pred succ : BitVec 4) (rs1 rd : Reg)
  | fenceI (imm : BitVec 12) (rs1 rd : Reg)
  -- system (R512 to R517)
  | ecall
  | ebreak
  | sret
  | mret
  | wfi
  -- (R519)
  | sfenceVma (rs1 rs2 : Reg)
  -- quadrant 0: the 8 bits `nzuimm[9:2]` (R541)
  | cAddi4spn (rd : CReg) (uimm : BitVec 8)
  -- `uimm[7:3]` of a doubleword form, `uimm[6:2]` of a word form (R542 to R549)
  | cFld (rd rs1 : CReg) (uimm : BitVec 5)
  | cLw (rd rs1 : CReg) (uimm : BitVec 5)
  | cFlw (rd rs1 : CReg) (uimm : BitVec 5)
  | cLd (rd rs1 : CReg) (uimm : BitVec 5)
  | cFsd (rs1 rs2 : CReg) (uimm : BitVec 5)
  | cSw (rs1 rs2 : CReg) (uimm : BitVec 5)
  | cFsw (rs1 rs2 : CReg) (uimm : BitVec 5)
  | cSd (rs1 rs2 : CReg) (uimm : BitVec 5)
  -- quadrant 1 (R550, R551)
  | cNop (imm : BitVec 6)
  | cAddi (rd : Reg) (imm : BitVec 6)
  -- `imm[11:1]` (R552)
  | cJal (imm : BitVec 11)
  -- (R553, R554)
  | cAddiw (rd : Reg) (imm : BitVec 6)
  | cLi (rd : Reg) (imm : BitVec 6)
  -- `nzimm[9:4]` (R555)
  | cAddi16sp (imm : BitVec 6)
  -- `nzimm[17:12]` (R556)
  | cLui (rd : Reg) (imm : BitVec 6)
  -- (R557, R558)
  | cSrli (rd : CReg) (shamt : BitVec 6)
  | cSrai (rd : CReg) (shamt : BitVec 6)
  -- (R559)
  | cAndi (rd : CReg) (imm : BitVec 6)
  -- (R560 to R565)
  | cSub (rd rs2 : CReg)
  | cXor (rd rs2 : CReg)
  | cOr (rd rs2 : CReg)
  | cAnd (rd rs2 : CReg)
  | cSubw (rd rs2 : CReg)
  | cAddw (rd rs2 : CReg)
  -- `imm[11:1]` (R566)
  | cJ (imm : BitVec 11)
  -- `imm[8:1]` (R567, R568)
  | cBeqz (rs1 : CReg) (imm : BitVec 8)
  | cBnez (rs1 : CReg) (imm : BitVec 8)
  -- quadrant 2 (R570)
  | cSlli (rd : Reg) (shamt : BitVec 6)
  -- `uimm[8:3]` of a doubleword form, `uimm[7:2]` of a word form (R571 to R574)
  | cFldsp (rd : Reg) (uimm : BitVec 6)
  | cLwsp (rd : Reg) (uimm : BitVec 6)
  | cFlwsp (rd : Reg) (uimm : BitVec 6)
  | cLdsp (rd : Reg) (uimm : BitVec 6)
  -- (R575 to R579)
  | cJr (rs1 : Reg)
  | cMv (rd rs2 : Reg)
  | cEbreak
  | cJalr (rs1 : Reg)
  | cAdd (rd rs2 : Reg)
  -- (R580 to R583)
  | cFsdsp (rs2 : Reg) (uimm : BitVec 6)
  | cSwsp (rs2 : Reg) (uimm : BitVec 6)
  | cFswsp (rs2 : Reg) (uimm : BitVec 6)
  | cSdsp (rs2 : Reg) (uimm : BitVec 6)
  deriving DecidableEq, Repr

/-- The raw bits of one instruction: a 16-bit parcel or a 32-bit word (R221). -/
inductive InstWord where
  | half (c : BitVec 16)
  | full (w : BitVec 32)
  deriving DecidableEq, Repr

/-- Why the decoder gives no instruction: the spec's `Illegal`, by name (R232, R244). -/
inductive Reject where
  /-- no row of the table has this major opcode at this XLEN (R229) -/
  | noMajorOpcode
  /-- the major opcode has no row with these function bits (R230, R231) -/
  | noFunction
  /-- a reserved compressed code point (R244) -/
  | reservedParcel
  /-- a compressed parcel while `C_ENABLED` is false (R222) -/
  | compressedDisabled
  /-- fewer bytes than the instruction has -/
  | truncated
  deriving DecidableEq, Repr

end Sys2Proof
end

