-- ==== Sys2Proof/Machine/CsrFile.lean ====
section
/-! DEFINITION. The CSR file (spec/10_state.md R55 to R91): the index table, the read views, the write masks, the
legalisers and the one side effect (a `satp` write flushes the TLB). -/

namespace Sys2Proof.Machine

open Sys2Proof

/-- The index table (R56): an index that is not in it has no CSR. -/
def Csr.ofIndex (i : CsrIndex) : Option Csr :=
  if i = 0x100#12 then some .sstatus
  else if i = 0x104#12 then some .sie
  else if i = 0x105#12 then some .stvec
  else if i = 0x140#12 then some .sscratch
  else if i = 0x141#12 then some .sepc
  else if i = 0x142#12 then some .scause
  else if i = 0x143#12 then some .stval
  else if i = 0x144#12 then some .sip
  else if i = 0x180#12 then some .satp
  else if i = 0x300#12 then some .mstatus
  else if i = 0x301#12 then some .misa
  else if i = 0x302#12 then some .medeleg
  else if i = 0x303#12 then some .mideleg
  else if i = 0x304#12 then some .mie
  else if i = 0x305#12 then some .mtvec
  else if i = 0x340#12 then some .mscratch
  else if i = 0x341#12 then some .mepc
  else if i = 0x342#12 then some .mcause
  else if i = 0x343#12 then some .mtval
  else if i = 0x344#12 then some .mip
  else if i = 0xF11#12 then some .mvendorid
  else if i = 0xF12#12 then some .marchid
  else if i = 0xF13#12 then some .mimpid
  else if i = 0xF14#12 then some .mhartid
  else none

/-! ### mstatus (R80) -/

/-- The encoding of a mode (R16). -/
def Priv.code : Priv → Word
  | .u => 0#64
  | .s => 1#64
  | .m => 3#64

/-- A 2-bit mode field; 2 names no mode (R16, R80). -/
def privOfCode (c : BitVec 2) : Option Priv :=
  if c = 0#2 then some .u else if c = 1#2 then some .s else if c = 3#2 then some .m else none

/-- UXL and SXL read 2 on RV64 (R80). -/
def mstatusFixed : Xlen → Word
  | .rv32 => 0#64
  | .rv64 => 0x0000000A00000000#64

/-- `mstatus` as a register (R80). -/
def Mstatus.word (x : Xlen) (m : Mstatus) : Word :=
  mstatusFixed x ||| bitAt 1 m.sie ||| bitAt 3 m.mie ||| bitAt 5 m.spie ||| bitAt 7 m.mpie ||| bitAt 8 m.spp
    ||| (Priv.code m.mpp <<< 11) ||| bitAt 17 m.mprv ||| bitAt 18 m.sum ||| bitAt 19 m.mxr

/-- A write of `v` to `mstatus` (R80): write mask `0x000E19AA`; a written MPP of 2 keeps the old MPP. -/
def Mstatus.write (m : Mstatus) (v : Word) : Mstatus where
  sie := v.getLsbD 1
  mie := v.getLsbD 3
  spie := v.getLsbD 5
  mpie := v.getLsbD 7
  spp := v.getLsbD 8
  mpp := (privOfCode (v.extractLsb' 11 2)).getD m.mpp
  mprv := v.getLsbD 17
  sum := v.getLsbD 18
  mxr := v.getLsbD 19

/-- A write of `v` through `sstatus` (R81): write mask `0x000C0122`. -/
def Mstatus.writeS (m : Mstatus) (v : Word) : Mstatus :=
  { m with sie := v.getLsbD 1, spie := v.getLsbD 5, spp := v.getLsbD 8, sum := v.getLsbD 18, mxr := v.getLsbD 19 }

/-- `SSTATUS_R` (R81). -/
def sstatusMask : Xlen → Word
  | .rv32 => 0x800DE762#64
  | .rv64 => 0x80000003000DE762#64

/-! ### misa (R82) -/

/-- `misa` (R82); the C bit is 0 when `C_ENABLED` is false. -/
def misaWord (p : Params) : Word :=
  (match p.xlen with
    | .rv32 => 0x40141101#64
    | .rv64 => 0x8000000000141101#64) ||| bitAt 2 p.cEnabled

/-! ### Masks and legalisers -/

/-- `(old & ~W) | (v & W)` (R57). -/
def masked (mask old v : Word) : Word := (old &&& ~~~mask) ||| (v &&& mask)

/-- R83 -/
def medelegMask : Word := 0xB3FF#64
/-- R83 -/
def midelegMask : Word := 0x222#64
/-- R84 -/
def mieMask : Word := 0xAAA#64
/-- R84: SSIP, STIP and SEIP -/
def mipMask : Word := 0x222#64
/-- R84: SSIP alone, the bit a write through `sip` may change -/
def sipMask : Word := 0x2#64

/-- `xtvec` (R85): MODE 2 and 3 keep the old MODE. -/
def tvecLegal (old v : Word) : Word :=
  if v.extractLsb' 1 1 = 1#1 then (v &&& ~~~3#64) ||| (old &&& 3#64) else v

/-- `xepc` holds bit 0 at 0, and bit 1 when `C_ENABLED` is false (R86). -/
def epcLegal (p : Params) (v : Word) : Word := if p.cEnabled then v &&& ~~~1#64 else v &&& ~~~3#64

/-- `satp` (R90): on RV64 a MODE other than 0 and 8 changes nothing. -/
def satpLegal (x : Xlen) (old v : Word) : Word :=
  match x with
  | .rv32 => v
  | .rv64 => if v.extractLsb' 60 4 = 0#4 ∨ v.extractLsb' 60 4 = 8#4 then v else old

/-! ### Reads and writes -/

/-- The read view of a CSR (R55, R81, R84). -/
def State.readCsr (s : State) : Csr → Word
  | .sstatus => s.csr.mstatus.word s.params.xlen &&& sstatusMask s.params.xlen
  | .sie => s.csr.mie &&& s.csr.mideleg
  | .stvec => s.csr.stvec
  | .sscratch => s.csr.sscratch
  | .sepc => s.csr.sepc
  | .scause => s.csr.scause
  | .stval => s.csr.stval
  | .sip => s.csr.mip &&& s.csr.mideleg
  | .satp => s.csr.satp
  | .mstatus => s.csr.mstatus.word s.params.xlen
  | .misa => misaWord s.params
  | .medeleg => s.csr.medeleg
  | .mideleg => s.csr.mideleg
  | .mie => s.csr.mie
  | .mtvec => s.csr.mtvec
  | .mscratch => s.csr.mscratch
  | .mepc => s.csr.mepc
  | .mcause => s.csr.mcause
  | .mtval => s.csr.mtval
  | .mip => s.csr.mip
  | .mvendorid => 0#64
  | .marchid => 0#64
  | .mimpid => 0#64
  | .mhartid => 0#64

/-- The CSR cells after a write of the XLEN-bit value `v` (R57, R80 to R90).  `misa` ignores it (R82), and no
instruction writes an ID register (R75, R490). -/
def CsrFile.write (p : Params) (c : CsrFile) (v : Word) : Csr → CsrFile
  | .sstatus => { c with mstatus := c.mstatus.writeS v }
  | .sie => { c with mie := masked (c.mideleg &&& midelegMask) c.mie v }
  | .stvec => { c with stvec := tvecLegal c.stvec v }
  | .sscratch => { c with sscratch := v }
  | .sepc => { c with sepc := epcLegal p v }
  | .scause => { c with scause := v }
  | .stval => { c with stval := v }
  | .sip => { c with mip := masked (c.mideleg &&& sipMask) c.mip v }
  | .satp => { c with satp := satpLegal p.xlen c.satp v }
  | .mstatus => { c with mstatus := c.mstatus.write v }
  | .misa => c
  | .medeleg => { c with medeleg := masked medelegMask c.medeleg v }
  | .mideleg => { c with mideleg := masked midelegMask c.mideleg v }
  | .mie => { c with mie := masked mieMask c.mie v }
  | .mtvec => { c with mtvec := tvecLegal c.mtvec v }
  | .mscratch => { c with mscratch := v }
  | .mepc => { c with mepc := epcLegal p v }
  | .mcause => { c with mcause := v }
  | .mtval => { c with mtval := v }
  | .mip => { c with mip := masked mipMask c.mip v }
  | .mvendorid => c
  | .marchid => c
  | .mimpid => c
  | .mhartid => c

/-- The TLB after a write of a CSR: a `satp` write flushes it, also one that R90 ignores (R91). -/
def Tlb.afterCsrWrite (t : Tlb) (c : Csr) : Tlb := if c = .satp then t.flush else t

/-- A write of `v` to a CSR, with its side effect (R57, R91). -/
def State.writeCsr (s : State) (c : Csr) (v : Word) : State :=
  { s with csr := s.csr.write s.params (truncX s.params.xlen v) c, tlb := s.tlb.afterCsrWrite c }

/-- The rank of a mode (R16). -/
def Priv.rank : Priv → Nat
  | .u => 0
  | .s => 1
  | .m => 3

/-- `CsrCheck(csr, writes)` (R490): the CSR, or none where the instruction is illegal. -/
def State.csrCheck (s : State) (i : CsrIndex) (writes : Bool) : Option Csr :=
  if Priv.rank s.priv < (i.extractLsb' 8 2).toNat then none
  else if writes && i.extractLsb' 10 2 == 3#2 then none
  else Csr.ofIndex i

end Sys2Proof.Machine
end

