-- ==== Sys2Proof/WellFormed.lean ====
section
/-! DEFINITION. Which instructions exist: the `xlen`, `length` and `constraint` columns of spec/opcode_table.json
(spec/30_encoding.md R229, R230, R242, R244).  Everything else about a field is already in its type. -/

namespace Sys2Proof

/-- The machines on which a row exists: its `xlen` column. -/
inductive Avail where
  | both
  | rv32Only
  | rv64Only
  deriving DecidableEq, Repr

/-- The `xlen` column of an instruction's row (R229, R230, R242). -/
def Instr.avail : Instr → Avail
  | .addiw .. | .slliw .. | .srliw .. | .sraiw .. | .addw .. | .subw .. | .sllw .. | .srlw .. | .sraw .. | .mulw ..
    | .divw .. | .divuw .. | .remw .. | .remuw .. | .ld .. | .lwu .. | .sd .. | .lrD .. | .scD .. | .amoswapD .. |
    .amoaddD .. | .amoxorD .. | .amoandD .. | .amoorD .. | .amominD .. | .amomaxD .. | .amominuD .. | .amomaxuD .. |
    .cLd .. | .cSd .. | .cAddiw .. | .cSubw .. | .cAddw .. | .cLdsp .. | .cSdsp .. => .rv64Only
  | .cFlw .. | .cFsw .. | .cJal .. | .cFlwsp .. | .cFswsp .. => .rv32Only
  | .lui .. | .auipc .. | .addi .. | .slti .. | .sltiu .. | .xori .. | .ori .. | .andi .. | .slli .. | .srli .. |
    .srai .. | .add .. | .sub .. | .sll .. | .slt .. | .sltu .. | .xor .. | .srl .. | .sra .. | .or .. | .and .. |
    .mul .. | .mulh .. | .mulhsu .. | .mulhu .. | .div .. | .divu .. | .rem .. | .remu .. | .jal .. | .jalr .. |
    .beq .. | .bne .. | .blt .. | .bge .. | .bltu .. | .bgeu .. | .lb .. | .lh .. | .lw .. | .lbu .. | .lhu .. | .sb
    .. | .sh .. | .sw .. | .lrW .. | .scW .. | .amoswapW .. | .amoaddW .. | .amoxorW .. | .amoandW .. | .amoorW .. |
    .amominW .. | .amomaxW .. | .amominuW .. | .amomaxuW .. | .csrrw .. | .csrrs .. | .csrrc .. | .csrrwi .. |
    .csrrsi .. | .csrrci .. | .fence .. | .fenceI .. | .ecall | .ebreak | .sret | .mret | .wfi | .sfenceVma .. |
    .cAddi4spn .. | .cFld .. | .cLw .. | .cFsd .. | .cSw .. | .cNop .. | .cAddi .. | .cLi .. | .cAddi16sp .. | .cLui
    .. | .cSrli .. | .cSrai .. | .cAndi .. | .cSub .. | .cXor .. | .cOr .. | .cAnd .. | .cJ .. | .cBeqz .. | .cBnez
    .. | .cSlli .. | .cFldsp .. | .cLwsp .. | .cJr .. | .cMv .. | .cEbreak | .cJalr .. | .cAdd .. | .cFsdsp .. |
    .cSwsp .. => .both

/-- `i` is a 16-bit instruction: its row's `length` is 16 (R221). -/
def Instr.compressed : Instr → Bool
  | .cAddi4spn .. | .cFld .. | .cLw .. | .cFlw .. | .cLd .. | .cFsd .. | .cSw .. | .cFsw .. | .cSd .. | .cNop .. |
    .cAddi .. | .cJal .. | .cAddiw .. | .cLi .. | .cAddi16sp .. | .cLui .. | .cSrli .. | .cSrai .. | .cAndi .. |
    .cSub .. | .cXor .. | .cOr .. | .cAnd .. | .cSubw .. | .cAddw .. | .cJ .. | .cBeqz .. | .cBnez .. | .cSlli .. |
    .cFldsp .. | .cLwsp .. | .cFlwsp .. | .cLdsp .. | .cJr .. | .cMv .. | .cEbreak | .cJalr .. | .cAdd .. | .cFsdsp
    .. | .cSwsp .. | .cFswsp .. | .cSdsp .. => true
  | .lui .. | .auipc .. | .addi .. | .slti .. | .sltiu .. | .xori .. | .ori .. | .andi .. | .slli .. | .srli .. |
    .srai .. | .add .. | .sub .. | .sll .. | .slt .. | .sltu .. | .xor .. | .srl .. | .sra .. | .or .. | .and .. |
    .addiw .. | .slliw .. | .srliw .. | .sraiw .. | .addw .. | .subw .. | .sllw .. | .srlw .. | .sraw .. | .mul .. |
    .mulh .. | .mulhsu .. | .mulhu .. | .div .. | .divu .. | .rem .. | .remu .. | .mulw .. | .divw .. | .divuw .. |
    .remw .. | .remuw .. | .jal .. | .jalr .. | .beq .. | .bne .. | .blt .. | .bge .. | .bltu .. | .bgeu .. | .lb ..
    | .lh .. | .lw .. | .ld .. | .lbu .. | .lhu .. | .lwu .. | .sb .. | .sh .. | .sw .. | .sd .. | .lrW .. | .lrD ..
    | .scW .. | .scD .. | .amoswapW .. | .amoswapD .. | .amoaddW .. | .amoaddD .. | .amoxorW .. | .amoxorD .. |
    .amoandW .. | .amoandD .. | .amoorW .. | .amoorD .. | .amominW .. | .amominD .. | .amomaxW .. | .amomaxD .. |
    .amominuW .. | .amominuD .. | .amomaxuW .. | .amomaxuD .. | .csrrw .. | .csrrs .. | .csrrc .. | .csrrwi .. |
    .csrrsi .. | .csrrci .. | .fence .. | .fenceI .. | .ecall | .ebreak | .sret | .mret | .wfi | .sfenceVma .. =>
    false

/-- The constraint on the fields: the RV32 shift amounts (R230, R244 item 8) and the code points that are reserved or
are another row's (R242, R244 items 1, 3, 4, 5, 9, 10 and 11). -/
def Instr.fieldsOk (x : Xlen) : Instr → Bool
  | .slli _ _ shamt | .srli _ _ shamt | .srai _ _ shamt => decide (x = .rv64) || !shamt.getLsbD 5
  | .cSlli _ shamt | .cSrli _ shamt | .cSrai _ shamt => decide (x = .rv64) || !shamt.getLsbD 5
  | .cAddi4spn _ uimm => decide (uimm ≠ 0#8)
  | .cAddi rd _ | .cAddiw rd _ | .cLwsp rd _ | .cLdsp rd _ => decide (rd ≠ 0#5)
  | .cAddi16sp imm => decide (imm ≠ 0#6)
  | .cLui rd imm => decide (rd ≠ 2#5) && decide (imm ≠ 0#6)
  | .cJr rs1 | .cJalr rs1 => decide (rs1 ≠ 0#5)
  | .cMv _ rs2 | .cAdd _ rs2 => decide (rs2 ≠ 0#5)
  | .lui .. | .auipc .. | .addi .. | .slti .. | .sltiu .. | .xori .. | .ori .. | .andi .. | .add .. | .sub .. | .sll
    .. | .slt .. | .sltu .. | .xor .. | .srl .. | .sra .. | .or .. | .and .. | .addiw .. | .slliw .. | .srliw .. |
    .sraiw .. | .addw .. | .subw .. | .sllw .. | .srlw .. | .sraw .. | .mul .. | .mulh .. | .mulhsu .. | .mulhu .. |
    .div .. | .divu .. | .rem .. | .remu .. | .mulw .. | .divw .. | .divuw .. | .remw .. | .remuw .. | .jal .. |
    .jalr .. | .beq .. | .bne .. | .blt .. | .bge .. | .bltu .. | .bgeu .. | .lb .. | .lh .. | .lw .. | .ld .. |
    .lbu .. | .lhu .. | .lwu .. | .sb .. | .sh .. | .sw .. | .sd .. | .lrW .. | .lrD .. | .scW .. | .scD .. |
    .amoswapW .. | .amoswapD .. | .amoaddW .. | .amoaddD .. | .amoxorW .. | .amoxorD .. | .amoandW .. | .amoandD ..
    | .amoorW .. | .amoorD .. | .amominW .. | .amominD .. | .amomaxW .. | .amomaxD .. | .amominuW .. | .amominuD ..
    | .amomaxuW .. | .amomaxuD .. | .csrrw .. | .csrrs .. | .csrrc .. | .csrrwi .. | .csrrsi .. | .csrrci .. |
    .fence .. | .fenceI .. | .ecall | .ebreak | .sret | .mret | .wfi | .sfenceVma .. | .cFld .. | .cLw .. | .cFlw ..
    | .cLd .. | .cFsd .. | .cSw .. | .cFsw .. | .cSd .. | .cNop .. | .cJal .. | .cLi .. | .cAndi .. | .cSub .. |
    .cXor .. | .cOr .. | .cAnd .. | .cSubw .. | .cAddw .. | .cJ .. | .cBeqz .. | .cBnez .. | .cFldsp .. | .cFlwsp ..
    | .cEbreak | .cFsdsp .. | .cSwsp .. | .cFswsp .. | .cSdsp .. => true

/-- The row exists on the XLEN-`x` machine. -/
def Avail.on (x : Xlen) : Avail → Bool
  | .both => true
  | .rv32Only => decide (x = .rv32)
  | .rv64Only => decide (x = .rv64)

/-- `i` is an instruction of the XLEN-`x` machine.  `exec` also answers for the others; no step asks it to (DESIGN CHOICE,
log entry 10). -/
def wellFormed (x : Xlen) (i : Instr) : Bool :=
  i.avail.on x && i.fieldsOk x

end Sys2Proof
end

