-- ==== Sys2Proof/Decode.lean ====
section
/-! DEFINITION. Instruction words to instructions and back (spec/30_encoding.md R221 to R247).

`decodeInst` is the decoder: total, strict (R232), a function of the bits, XLEN and `C_ENABLED` alone (R233).
`encode` gives the words of a well-formed instruction, written from the same rows.  A 32-bit word is cut into fields by
`Field`, a parcel by `Parcel`; the scattered immediates of R223 and R241 each have a `scatter` and a `gather`. -/

namespace Sys2Proof

/-! ### Fields of a 32-bit word (R223, R225) -/

namespace Field

/-- `opcode`, bits 6:0. -/
def op (w : BitVec 32) : BitVec 7 := w.extractLsb' 0 7
/-- `rd`, bits 11:7. -/
def rd (w : BitVec 32) : Reg := w.extractLsb' 7 5
/-- `funct3`, bits 14:12. -/
def funct3 (w : BitVec 32) : BitVec 3 := w.extractLsb' 12 3
/-- `rs1`, bits 19:15, and the CSR immediate that stands in its place. -/
def rs1 (w : BitVec 32) : Reg := w.extractLsb' 15 5
/-- `rs2`, bits 24:20, and the 5-bit shift amount that stands in its place. -/
def rs2 (w : BitVec 32) : Reg := w.extractLsb' 20 5
/-- `funct7`, bits 31:25. -/
def funct7 (w : BitVec 32) : BitVec 7 := w.extractLsb' 25 7
/-- `imm[11:0]` of the I format and the CSR index, bits 31:20. -/
def imm12 (w : BitVec 32) : BitVec 12 := w.extractLsb' 20 12
/-- bits 31:12, the immediate field of the U and J formats. -/
def imm20 (w : BitVec 32) : BitVec 20 := w.extractLsb' 12 20
/-- `funct6`, bits 31:26. -/
def funct6 (w : BitVec 32) : BitVec 6 := w.extractLsb' 26 6
/-- the 6-bit shift amount, bits 25:20. -/
def shamt (w : BitVec 32) : BitVec 6 := w.extractLsb' 20 6
/-- `funct5`, bits 31:27. -/
def funct5 (w : BitVec 32) : BitVec 5 := w.extractLsb' 27 5
/-- `aq`, bit 26. -/
def aq (w : BitVec 32) : Bool := w.getLsbD 26
/-- `rl`, bit 25. -/
def rl (w : BitVec 32) : Bool := w.getLsbD 25
/-- `fm`, bits 31:28. -/
def fm (w : BitVec 32) : BitVec 4 := w.extractLsb' 28 4
/-- `pred`, bits 27:24. -/
def pred (w : BitVec 32) : BitVec 4 := w.extractLsb' 24 4
/-- `succ`, bits 23:20. -/
def succ (w : BitVec 32) : BitVec 4 := w.extractLsb' 20 4

end Field

/-! ### Fields of a 16-bit parcel (R240) -/

namespace Parcel

/-- the quadrant, bits 1:0. -/
def quad (c : BitVec 16) : BitVec 2 := c.extractLsb' 0 2
/-- `funct3`, bits 15:13. -/
def funct3 (c : BitVec 16) : BitVec 3 := c.extractLsb' 13 3
/-- bit 12. -/
def b12 (c : BitVec 16) : BitVec 1 := c.extractLsb' 12 1
/-- `rd`/`rs1`, bits 11:7. -/
def rd (c : BitVec 16) : Reg := c.extractLsb' 7 5
/-- `rs2`, bits 6:2, and the low immediate field of the CI and CB formats. -/
def lo5 (c : BitVec 16) : BitVec 5 := c.extractLsb' 2 5
/-- `rs1'`/`rd'`, bits 9:7. -/
def rs1' (c : BitVec 16) : CReg := c.extractLsb' 7 3
/-- `rd'`/`rs2'`, bits 4:2. -/
def rd' (c : BitVec 16) : CReg := c.extractLsb' 2 3
/-- bits 11:10, the second function field of the CB and CA formats. -/
def f2 (c : BitVec 16) : BitVec 2 := c.extractLsb' 10 2
/-- bits 6:5. -/
def mid2 (c : BitVec 16) : BitVec 2 := c.extractLsb' 5 2
/-- bits 12:10. -/
def hi3 (c : BitVec 16) : BitVec 3 := c.extractLsb' 10 3
/-- bits 12:5, the CIW immediate. -/
def imm8 (c : BitVec 16) : BitVec 8 := c.extractLsb' 5 8
/-- bits 12:7, the CSS immediate. -/
def imm6 (c : BitVec 16) : BitVec 6 := c.extractLsb' 7 6
/-- bits 12:2, the CJ target. -/
def imm11 (c : BitVec 16) : BitVec 11 := c.extractLsb' 2 11

end Parcel

/-! ### Scattered immediates.  `gather` reads the immediate out of the fields, `scatter` puts it back. -/

namespace Imm

/-- B (R223): bit 31 is imm[12], 30:25 are imm[10:5]; the low field holds imm[4:1] and imm[11]. -/
def gatherB (hi : BitVec 7) (lo : BitVec 5) : BitVec 12 :=
  hi.extractLsb' 6 1 ++ lo.extractLsb' 0 1 ++ hi.extractLsb' 0 6 ++ lo.extractLsb' 1 4
def scatterBHi (i : BitVec 12) : BitVec 7 := i.extractLsb' 11 1 ++ i.extractLsb' 4 6
def scatterBLo (i : BitVec 12) : BitVec 5 := i.extractLsb' 0 4 ++ i.extractLsb' 10 1

/-- J (R223): bit 31 is imm[20], 30:21 are imm[10:1], 20 is imm[11], 19:12 are imm[19:12]. -/
def gatherJ (f : BitVec 20) : BitVec 20 :=
  f.extractLsb' 19 1 ++ f.extractLsb' 0 8 ++ f.extractLsb' 8 1 ++ f.extractLsb' 9 10
def scatterJ (i : BitVec 20) : BitVec 20 :=
  i.extractLsb' 19 1 ++ i.extractLsb' 0 10 ++ i.extractLsb' 10 1 ++ i.extractLsb' 11 8

/-- C.ADDI4SPN (R241): c[12:11] to [5:4], c[10:7] to [9:6], c[6] to [2], c[5] to [3]. -/
def gatherSpn (f : BitVec 8) : BitVec 8 :=
  f.extractLsb' 2 4 ++ f.extractLsb' 6 2 ++ f.extractLsb' 0 1 ++ f.extractLsb' 1 1
def scatterSpn (u : BitVec 8) : BitVec 8 :=
  u.extractLsb' 2 2 ++ u.extractLsb' 4 4 ++ u.extractLsb' 0 1 ++ u.extractLsb' 1 1

/-- C.LW and its companions (R241): c[12:10] to [5:3], c[6] to [2], c[5] to [6]. -/
def gatherW (hi : BitVec 3) (mid : BitVec 2) : BitVec 5 :=
  mid.extractLsb' 0 1 ++ hi ++ mid.extractLsb' 1 1
def scatterWHi (u : BitVec 5) : BitVec 3 := u.extractLsb' 1 3
def scatterWMid (u : BitVec 5) : BitVec 2 := u.extractLsb' 0 1 ++ u.extractLsb' 4 1

/-- C.LD and its companions (R241): c[12:10] to [5:3], c[6:5] to [7:6]. -/
def gatherD (hi : BitVec 3) (mid : BitVec 2) : BitVec 5 := mid ++ hi
def scatterDHi (u : BitVec 5) : BitVec 3 := u.extractLsb' 0 3
def scatterDMid (u : BitVec 5) : BitVec 2 := u.extractLsb' 3 2

/-- CI (R241): c[12] to [5], c[6:2] to [4:0]. -/
def gatherI (b : BitVec 1) (lo : BitVec 5) : BitVec 6 := b ++ lo
def scatterIB (u : BitVec 6) : BitVec 1 := u.extractLsb' 5 1
def scatterILo (u : BitVec 6) : BitVec 5 := u.extractLsb' 0 5

/-- C.ADDI16SP (R241): c[12] to [9], c[6] to [4], c[5] to [6], c[4:3] to [8:7], c[2] to [5]. -/
def gather16 (b : BitVec 1) (lo : BitVec 5) : BitVec 6 :=
  b ++ lo.extractLsb' 1 2 ++ lo.extractLsb' 3 1 ++ lo.extractLsb' 0 1 ++ lo.extractLsb' 4 1
def scatter16B (u : BitVec 6) : BitVec 1 := u.extractLsb' 5 1
def scatter16Lo (u : BitVec 6) : BitVec 5 :=
  u.extractLsb' 0 1 ++ u.extractLsb' 2 1 ++ u.extractLsb' 3 2 ++ u.extractLsb' 1 1

/-- C.LWSP (R241): c[12] to [5], c[6:4] to [4:2], c[3:2] to [7:6]. -/
def gatherLwsp (b : BitVec 1) (lo : BitVec 5) : BitVec 6 :=
  lo.extractLsb' 0 2 ++ b ++ lo.extractLsb' 2 3
def scatterLwspB (u : BitVec 6) : BitVec 1 := u.extractLsb' 3 1
def scatterLwspLo (u : BitVec 6) : BitVec 5 := u.extractLsb' 0 3 ++ u.extractLsb' 4 2

/-- C.LDSP (R241): c[12] to [5], c[6:5] to [4:3], c[4:2] to [8:6]. -/
def gatherLdsp (b : BitVec 1) (lo : BitVec 5) : BitVec 6 :=
  lo.extractLsb' 0 3 ++ b ++ lo.extractLsb' 3 2
def scatterLdspB (u : BitVec 6) : BitVec 1 := u.extractLsb' 2 1
def scatterLdspLo (u : BitVec 6) : BitVec 5 := u.extractLsb' 0 2 ++ u.extractLsb' 3 3

/-- C.SWSP (R241): c[12:9] to [5:2], c[8:7] to [7:6]. -/
def gatherSwsp (f : BitVec 6) : BitVec 6 := f.extractLsb' 0 2 ++ f.extractLsb' 2 4
def scatterSwsp (u : BitVec 6) : BitVec 6 := u.extractLsb' 0 4 ++ u.extractLsb' 4 2

/-- C.SDSP (R241): c[12:10] to [5:3], c[9:7] to [8:6]. -/
def gatherSdsp (f : BitVec 6) : BitVec 6 := f.extractLsb' 0 3 ++ f.extractLsb' 3 3
def scatterSdsp (u : BitVec 6) : BitVec 6 := u.extractLsb' 0 3 ++ u.extractLsb' 3 3

/-- C.J (R241): c[12] to [11], c[11] to [4], c[10:9] to [9:8], c[8] to [10], c[7] to [6], c[6] to [7], c[5:3] to [3:1],
c[2] to [5]. -/
def gatherCJ (f : BitVec 11) : BitVec 11 :=
  f.extractLsb' 10 1 ++ f.extractLsb' 6 1 ++ f.extractLsb' 7 2 ++ f.extractLsb' 4 1 ++ f.extractLsb' 5 1
    ++ f.extractLsb' 0 1 ++ f.extractLsb' 9 1 ++ f.extractLsb' 1 3
def scatterCJ (i : BitVec 11) : BitVec 11 :=
  i.extractLsb' 10 1 ++ i.extractLsb' 3 1 ++ i.extractLsb' 7 2 ++ i.extractLsb' 9 1 ++ i.extractLsb' 5 1
    ++ i.extractLsb' 6 1 ++ i.extractLsb' 0 3 ++ i.extractLsb' 4 1

/-- C.BEQZ (R241): c[12] to [8], c[11:10] to [4:3], c[6:5] to [7:6], c[4:3] to [2:1], c[2] to [5]. -/
def gatherCB (hi : BitVec 3) (lo : BitVec 5) : BitVec 8 :=
  hi.extractLsb' 2 1 ++ lo.extractLsb' 3 2 ++ lo.extractLsb' 0 1 ++ hi.extractLsb' 0 2 ++ lo.extractLsb' 1 2
def scatterCBHi (i : BitVec 8) : BitVec 3 := i.extractLsb' 7 1 ++ i.extractLsb' 2 2
def scatterCBLo (i : BitVec 8) : BitVec 5 := i.extractLsb' 5 2 ++ i.extractLsb' 0 2 ++ i.extractLsb' 4 1

end Imm

/-! ### The 32-bit opcode map (R229 to R232) -/

/-- OP-IMM (R230). On RV32 bit 25 of a shift is 0. -/
def decodeOpImm (x : Xlen) (w : BitVec 32) : Except Reject Instr :=
  if Field.funct3 w = 0#3 then .ok (.addi (Field.rd w) (Field.rs1 w) (Field.imm12 w))
  else if Field.funct3 w = 2#3 then .ok (.slti (Field.rd w) (Field.rs1 w) (Field.imm12 w))
  else if Field.funct3 w = 3#3 then .ok (.sltiu (Field.rd w) (Field.rs1 w) (Field.imm12 w))
  else if Field.funct3 w = 4#3 then .ok (.xori (Field.rd w) (Field.rs1 w) (Field.imm12 w))
  else if Field.funct3 w = 6#3 then .ok (.ori (Field.rd w) (Field.rs1 w) (Field.imm12 w))
  else if Field.funct3 w = 7#3 then .ok (.andi (Field.rd w) (Field.rs1 w) (Field.imm12 w))
  else if x = .rv32 ∧ (Field.shamt w).getLsbD 5 = true then .error .noFunction
  else if Field.funct3 w = 1#3 ∧ Field.funct6 w = 0#6 then .ok (.slli (Field.rd w) (Field.rs1 w) (Field.shamt w))
  else if Field.funct3 w = 5#3 ∧ Field.funct6 w = 0#6 then .ok (.srli (Field.rd w) (Field.rs1 w) (Field.shamt w))
  else if Field.funct3 w = 5#3 ∧ Field.funct6 w = 16#6 then .ok (.srai (Field.rd w) (Field.rs1 w) (Field.shamt w))
  else .error .noFunction

/-- OP-IMM-32 (R230), RV64 only. -/
def decodeOpImm32 (w : BitVec 32) : Except Reject Instr :=
  if Field.funct3 w = 0#3 then .ok (.addiw (Field.rd w) (Field.rs1 w) (Field.imm12 w))
  else if Field.funct3 w = 1#3 ∧ Field.funct7 w = 0#7 then .ok (.slliw (Field.rd w) (Field.rs1 w) (Field.rs2 w))
  else if Field.funct3 w = 5#3 ∧ Field.funct7 w = 0#7 then .ok (.srliw (Field.rd w) (Field.rs1 w) (Field.rs2 w))
  else if Field.funct3 w = 5#3 ∧ Field.funct7 w = 32#7 then .ok (.sraiw (Field.rd w) (Field.rs1 w) (Field.rs2 w))
  else .error .noFunction

/-- OP (R230): `funct7` then `funct3`. -/
def decodeOp (w : BitVec 32) : Except Reject Instr :=
  if Field.funct7 w = 0#7 ∧ Field.funct3 w = 0#3 then .ok (.add (Field.rd w) (Field.rs1 w) (Field.rs2 w))
  else if Field.funct7 w = 0#7 ∧ Field.funct3 w = 1#3 then .ok (.sll (Field.rd w) (Field.rs1 w) (Field.rs2 w))
  else if Field.funct7 w = 0#7 ∧ Field.funct3 w = 2#3 then .ok (.slt (Field.rd w) (Field.rs1 w) (Field.rs2 w))
  else if Field.funct7 w = 0#7 ∧ Field.funct3 w = 3#3 then .ok (.sltu (Field.rd w) (Field.rs1 w) (Field.rs2 w))
  else if Field.funct7 w = 0#7 ∧ Field.funct3 w = 4#3 then .ok (.xor (Field.rd w) (Field.rs1 w) (Field.rs2 w))
  else if Field.funct7 w = 0#7 ∧ Field.funct3 w = 5#3 then .ok (.srl (Field.rd w) (Field.rs1 w) (Field.rs2 w))
  else if Field.funct7 w = 0#7 ∧ Field.funct3 w = 6#3 then .ok (.or (Field.rd w) (Field.rs1 w) (Field.rs2 w))
  else if Field.funct7 w = 0#7 ∧ Field.funct3 w = 7#3 then .ok (.and (Field.rd w) (Field.rs1 w) (Field.rs2 w))
  else if Field.funct7 w = 32#7 ∧ Field.funct3 w = 0#3 then .ok (.sub (Field.rd w) (Field.rs1 w) (Field.rs2 w))
  else if Field.funct7 w = 32#7 ∧ Field.funct3 w = 5#3 then .ok (.sra (Field.rd w) (Field.rs1 w) (Field.rs2 w))
  else if Field.funct7 w = 1#7 ∧ Field.funct3 w = 0#3 then .ok (.mul (Field.rd w) (Field.rs1 w) (Field.rs2 w))
  else if Field.funct7 w = 1#7 ∧ Field.funct3 w = 1#3 then .ok (.mulh (Field.rd w) (Field.rs1 w) (Field.rs2 w))
  else if Field.funct7 w = 1#7 ∧ Field.funct3 w = 2#3 then .ok (.mulhsu (Field.rd w) (Field.rs1 w) (Field.rs2 w))
  else if Field.funct7 w = 1#7 ∧ Field.funct3 w = 3#3 then .ok (.mulhu (Field.rd w) (Field.rs1 w) (Field.rs2 w))
  else if Field.funct7 w = 1#7 ∧ Field.funct3 w = 4#3 then .ok (.div (Field.rd w) (Field.rs1 w) (Field.rs2 w))
  else if Field.funct7 w = 1#7 ∧ Field.funct3 w = 5#3 then .ok (.divu (Field.rd w) (Field.rs1 w) (Field.rs2 w))
  else if Field.funct7 w = 1#7 ∧ Field.funct3 w = 6#3 then .ok (.rem (Field.rd w) (Field.rs1 w) (Field.rs2 w))
  else if Field.funct7 w = 1#7 ∧ Field.funct3 w = 7#3 then .ok (.remu (Field.rd w) (Field.rs1 w) (Field.rs2 w))
  else .error .noFunction

/-- OP-32 (R230), RV64 only. -/
def decodeOp32 (w : BitVec 32) : Except Reject Instr :=
  if Field.funct7 w = 0#7 ∧ Field.funct3 w = 0#3 then .ok (.addw (Field.rd w) (Field.rs1 w) (Field.rs2 w))
  else if Field.funct7 w = 0#7 ∧ Field.funct3 w = 1#3 then .ok (.sllw (Field.rd w) (Field.rs1 w) (Field.rs2 w))
  else if Field.funct7 w = 0#7 ∧ Field.funct3 w = 5#3 then .ok (.srlw (Field.rd w) (Field.rs1 w) (Field.rs2 w))
  else if Field.funct7 w = 32#7 ∧ Field.funct3 w = 0#3 then .ok (.subw (Field.rd w) (Field.rs1 w) (Field.rs2 w))
  else if Field.funct7 w = 32#7 ∧ Field.funct3 w = 5#3 then .ok (.sraw (Field.rd w) (Field.rs1 w) (Field.rs2 w))
  else if Field.funct7 w = 1#7 ∧ Field.funct3 w = 0#3 then .ok (.mulw (Field.rd w) (Field.rs1 w) (Field.rs2 w))
  else if Field.funct7 w = 1#7 ∧ Field.funct3 w = 4#3 then .ok (.divw (Field.rd w) (Field.rs1 w) (Field.rs2 w))
  else if Field.funct7 w = 1#7 ∧ Field.funct3 w = 5#3 then .ok (.divuw (Field.rd w) (Field.rs1 w) (Field.rs2 w))
  else if Field.funct7 w = 1#7 ∧ Field.funct3 w = 6#3 then .ok (.remw (Field.rd w) (Field.rs1 w) (Field.rs2 w))
  else if Field.funct7 w = 1#7 ∧ Field.funct3 w = 7#3 then .ok (.remuw (Field.rd w) (Field.rs1 w) (Field.rs2 w))
  else .error .noFunction

/-- LOAD (R230). `LD` and `LWU` are RV64 only. -/
def decodeLoad (x : Xlen) (w : BitVec 32) : Except Reject Instr :=
  if Field.funct3 w = 0#3 then .ok (.lb (Field.rd w) (Field.rs1 w) (Field.imm12 w))
  else if Field.funct3 w = 1#3 then .ok (.lh (Field.rd w) (Field.rs1 w) (Field.imm12 w))
  else if Field.funct3 w = 2#3 then .ok (.lw (Field.rd w) (Field.rs1 w) (Field.imm12 w))
  else if Field.funct3 w = 3#3 ∧ x = .rv64 then .ok (.ld (Field.rd w) (Field.rs1 w) (Field.imm12 w))
  else if Field.funct3 w = 4#3 then .ok (.lbu (Field.rd w) (Field.rs1 w) (Field.imm12 w))
  else if Field.funct3 w = 5#3 then .ok (.lhu (Field.rd w) (Field.rs1 w) (Field.imm12 w))
  else if Field.funct3 w = 6#3 ∧ x = .rv64 then .ok (.lwu (Field.rd w) (Field.rs1 w) (Field.imm12 w))
  else .error .noFunction

/-- STORE (R230): the immediate is bits 31:25 and 11:7 (R224). `SD` is RV64 only. -/
def decodeStore (x : Xlen) (w : BitVec 32) : Except Reject Instr :=
  if Field.funct3 w = 0#3 then .ok (.sb (Field.rs1 w) (Field.rs2 w) (Field.funct7 w ++ Field.rd w))
  else if Field.funct3 w = 1#3 then .ok (.sh (Field.rs1 w) (Field.rs2 w) (Field.funct7 w ++ Field.rd w))
  else if Field.funct3 w = 2#3 then .ok (.sw (Field.rs1 w) (Field.rs2 w) (Field.funct7 w ++ Field.rd w))
  else if Field.funct3 w = 3#3 ∧ x = .rv64 then .ok (.sd (Field.rs1 w) (Field.rs2 w) (Field.funct7 w ++ Field.rd w))
  else .error .noFunction

/-- BRANCH (R230). -/
def decodeBranch (w : BitVec 32) : Except Reject Instr :=
  if Field.funct3 w = 0#3 then .ok (.beq (Field.rs1 w) (Field.rs2 w) (Imm.gatherB (Field.funct7 w) (Field.rd w)))
  else if Field.funct3 w = 1#3 then .ok (.bne (Field.rs1 w) (Field.rs2 w) (Imm.gatherB (Field.funct7 w) (Field.rd w)))
  else if Field.funct3 w = 4#3 then .ok (.blt (Field.rs1 w) (Field.rs2 w) (Imm.gatherB (Field.funct7 w) (Field.rd w)))
  else if Field.funct3 w = 5#3 then .ok (.bge (Field.rs1 w) (Field.rs2 w) (Imm.gatherB (Field.funct7 w) (Field.rd w)))
  else if Field.funct3 w = 6#3 then .ok (.bltu (Field.rs1 w) (Field.rs2 w) (Imm.gatherB (Field.funct7 w) (Field.rd w)))
  else if Field.funct3 w = 7#3 then .ok (.bgeu (Field.rs1 w) (Field.rs2 w) (Imm.gatherB (Field.funct7 w) (Field.rd w)))
  else .error .noFunction

/-- AMO, `funct3` 010 (R230), by `funct5`. Any `aq` and `rl`; LR needs `rs2 = 0`. -/
def decodeAmoW (w : BitVec 32) : Except Reject Instr :=
  if Field.funct5 w = 2#5 ∧ Field.rs2 w = 0#5 then .ok (.lrW (Field.aq w) (Field.rl w) (Field.rd w) (Field.rs1 w))
  else if Field.funct5 w = 3#5 then .ok (.scW (Field.aq w) (Field.rl w) (Field.rd w) (Field.rs1 w) (Field.rs2 w))
  else if Field.funct5 w = 1#5 then .ok (.amoswapW (Field.aq w) (Field.rl w) (Field.rd w) (Field.rs1 w) (Field.rs2 w))
  else if Field.funct5 w = 0#5 then .ok (.amoaddW (Field.aq w) (Field.rl w) (Field.rd w) (Field.rs1 w) (Field.rs2 w))
  else if Field.funct5 w = 4#5 then .ok (.amoxorW (Field.aq w) (Field.rl w) (Field.rd w) (Field.rs1 w) (Field.rs2 w))
  else if Field.funct5 w = 12#5 then .ok (.amoandW (Field.aq w) (Field.rl w) (Field.rd w) (Field.rs1 w) (Field.rs2 w))
  else if Field.funct5 w = 8#5 then .ok (.amoorW (Field.aq w) (Field.rl w) (Field.rd w) (Field.rs1 w) (Field.rs2 w))
  else if Field.funct5 w = 16#5 then .ok (.amominW (Field.aq w) (Field.rl w) (Field.rd w) (Field.rs1 w) (Field.rs2 w))
  else if Field.funct5 w = 20#5 then .ok (.amomaxW (Field.aq w) (Field.rl w) (Field.rd w) (Field.rs1 w) (Field.rs2 w))
  else if Field.funct5 w = 24#5 then .ok (.amominuW (Field.aq w) (Field.rl w) (Field.rd w) (Field.rs1 w) (Field.rs2 w))
  else if Field.funct5 w = 28#5 then .ok (.amomaxuW (Field.aq w) (Field.rl w) (Field.rd w) (Field.rs1 w) (Field.rs2 w))
  else .error .noFunction

/-- AMO, `funct3` 011, RV64 only (R230), by `funct5`. Any `aq` and `rl`; LR needs `rs2 = 0`. -/
def decodeAmoD (w : BitVec 32) : Except Reject Instr :=
  if Field.funct5 w = 2#5 ∧ Field.rs2 w = 0#5 then .ok (.lrD (Field.aq w) (Field.rl w) (Field.rd w) (Field.rs1 w))
  else if Field.funct5 w = 3#5 then .ok (.scD (Field.aq w) (Field.rl w) (Field.rd w) (Field.rs1 w) (Field.rs2 w))
  else if Field.funct5 w = 1#5 then .ok (.amoswapD (Field.aq w) (Field.rl w) (Field.rd w) (Field.rs1 w) (Field.rs2 w))
  else if Field.funct5 w = 0#5 then .ok (.amoaddD (Field.aq w) (Field.rl w) (Field.rd w) (Field.rs1 w) (Field.rs2 w))
  else if Field.funct5 w = 4#5 then .ok (.amoxorD (Field.aq w) (Field.rl w) (Field.rd w) (Field.rs1 w) (Field.rs2 w))
  else if Field.funct5 w = 12#5 then .ok (.amoandD (Field.aq w) (Field.rl w) (Field.rd w) (Field.rs1 w) (Field.rs2 w))
  else if Field.funct5 w = 8#5 then .ok (.amoorD (Field.aq w) (Field.rl w) (Field.rd w) (Field.rs1 w) (Field.rs2 w))
  else if Field.funct5 w = 16#5 then .ok (.amominD (Field.aq w) (Field.rl w) (Field.rd w) (Field.rs1 w) (Field.rs2 w))
  else if Field.funct5 w = 20#5 then .ok (.amomaxD (Field.aq w) (Field.rl w) (Field.rd w) (Field.rs1 w) (Field.rs2 w))
  else if Field.funct5 w = 24#5 then .ok (.amominuD (Field.aq w) (Field.rl w) (Field.rd w) (Field.rs1 w) (Field.rs2 w))
  else if Field.funct5 w = 28#5 then .ok (.amomaxuD (Field.aq w) (Field.rl w) (Field.rd w) (Field.rs1 w) (Field.rs2 w))
  else .error .noFunction

/-- SYSTEM (R231): the CSR instructions, and for `funct3` 000 the exact words. -/
def decodeSystem (w : BitVec 32) : Except Reject Instr :=
  if Field.funct3 w = 1#3 then .ok (.csrrw (Field.rd w) (Field.rs1 w) (Field.imm12 w))
  else if Field.funct3 w = 2#3 then .ok (.csrrs (Field.rd w) (Field.rs1 w) (Field.imm12 w))
  else if Field.funct3 w = 3#3 then .ok (.csrrc (Field.rd w) (Field.rs1 w) (Field.imm12 w))
  else if Field.funct3 w = 5#3 then .ok (.csrrwi (Field.rd w) (Field.rs1 w) (Field.imm12 w))
  else if Field.funct3 w = 6#3 then .ok (.csrrsi (Field.rd w) (Field.rs1 w) (Field.imm12 w))
  else if Field.funct3 w = 7#3 then .ok (.csrrci (Field.rd w) (Field.rs1 w) (Field.imm12 w))
  else if w = 0x00000073#32 then .ok .ecall
  else if w = 0x00100073#32 then .ok .ebreak
  else if w = 0x10200073#32 then .ok .sret
  else if w = 0x30200073#32 then .ok .mret
  else if w = 0x10500073#32 then .ok .wfi
  else if Field.funct7 w = 9#7 ∧ Field.funct3 w = 0#3 ∧ Field.rd w = 0#5 then
    .ok (.sfenceVma (Field.rs1 w) (Field.rs2 w))
  else .error .noFunction

/-- MISC-MEM (R230): every other field of FENCE and FENCE.I is kept and ignored (R232). -/
def decodeMiscMem (w : BitVec 32) : Except Reject Instr :=
  if Field.funct3 w = 0#3 then
    .ok (.fence (Field.fm w) (Field.pred w) (Field.succ w) (Field.rs1 w) (Field.rd w))
  else if Field.funct3 w = 1#3 then .ok (.fenceI (Field.imm12 w) (Field.rs1 w) (Field.rd w))
  else .error .noFunction

/-- A 32-bit word, by major opcode (R229, R232). -/
def decode32 (x : Xlen) (w : BitVec 32) : Except Reject Instr :=
  if Field.op w = 0b0110111#7 then .ok (.lui (Field.rd w) (Field.imm20 w))
  else if Field.op w = 0b0010111#7 then .ok (.auipc (Field.rd w) (Field.imm20 w))
  else if Field.op w = 0b0010011#7 then decodeOpImm x w
  else if Field.op w = 0b0110011#7 then decodeOp w
  else if Field.op w = 0b0011011#7 ∧ x = .rv64 then decodeOpImm32 w
  else if Field.op w = 0b0111011#7 ∧ x = .rv64 then decodeOp32 w
  else if Field.op w = 0b1101111#7 then .ok (.jal (Field.rd w) (Imm.gatherJ (Field.imm20 w)))
  else if Field.op w = 0b1100111#7 then
    if Field.funct3 w = 0#3 then .ok (.jalr (Field.rd w) (Field.rs1 w) (Field.imm12 w)) else .error .noFunction
  else if Field.op w = 0b1100011#7 then decodeBranch w
  else if Field.op w = 0b0000011#7 then decodeLoad x w
  else if Field.op w = 0b0100011#7 then decodeStore x w
  else if Field.op w = 0b0101111#7 then
    if Field.funct3 w = 2#3 then decodeAmoW w
    else if Field.funct3 w = 3#3 ∧ x = .rv64 then decodeAmoD w
    else .error .noFunction
  else if Field.op w = 0b1110011#7 then decodeSystem w
  else if Field.op w = 0b0001111#7 then decodeMiscMem w
  else .error .noMajorOpcode

/-! ### The compressed map (R242, R244) -/

/-- Quadrant 00 (R242). -/
def decodeQ0 (x : Xlen) (c : BitVec 16) : Except Reject Instr :=
  if Parcel.funct3 c = 0#3 then
    if Parcel.imm8 c = 0#8 then .error .reservedParcel
    else .ok (.cAddi4spn (Parcel.rd' c) (Imm.gatherSpn (Parcel.imm8 c)))
  else if Parcel.funct3 c = 1#3 then
    .ok (.cFld (Parcel.rd' c) (Parcel.rs1' c) (Imm.gatherD (Parcel.hi3 c) (Parcel.mid2 c)))
  else if Parcel.funct3 c = 2#3 then
    .ok (.cLw (Parcel.rd' c) (Parcel.rs1' c) (Imm.gatherW (Parcel.hi3 c) (Parcel.mid2 c)))
  else if Parcel.funct3 c = 3#3 then
    match x with
    | .rv32 => .ok (.cFlw (Parcel.rd' c) (Parcel.rs1' c) (Imm.gatherW (Parcel.hi3 c) (Parcel.mid2 c)))
    | .rv64 => .ok (.cLd (Parcel.rd' c) (Parcel.rs1' c) (Imm.gatherD (Parcel.hi3 c) (Parcel.mid2 c)))
  else if Parcel.funct3 c = 5#3 then
    .ok (.cFsd (Parcel.rs1' c) (Parcel.rd' c) (Imm.gatherD (Parcel.hi3 c) (Parcel.mid2 c)))
  else if Parcel.funct3 c = 6#3 then
    .ok (.cSw (Parcel.rs1' c) (Parcel.rd' c) (Imm.gatherW (Parcel.hi3 c) (Parcel.mid2 c)))
  else if Parcel.funct3 c = 7#3 then
    match x with
    | .rv32 => .ok (.cFsw (Parcel.rs1' c) (Parcel.rd' c) (Imm.gatherW (Parcel.hi3 c) (Parcel.mid2 c)))
    | .rv64 => .ok (.cSd (Parcel.rs1' c) (Parcel.rd' c) (Imm.gatherD (Parcel.hi3 c) (Parcel.mid2 c)))
  else .error .reservedParcel

/-- Quadrant 01, `funct3` 100: shifts, C.ANDI and the CA arithmetic (R242). -/
def decodeQ1Alu (x : Xlen) (c : BitVec 16) : Except Reject Instr :=
  if Parcel.f2 c = 0#2 then
    if x = .rv32 ∧ Parcel.b12 c = 1#1 then .error .reservedParcel
    else .ok (.cSrli (Parcel.rs1' c) (Imm.gatherI (Parcel.b12 c) (Parcel.lo5 c)))
  else if Parcel.f2 c = 1#2 then
    if x = .rv32 ∧ Parcel.b12 c = 1#1 then .error .reservedParcel
    else .ok (.cSrai (Parcel.rs1' c) (Imm.gatherI (Parcel.b12 c) (Parcel.lo5 c)))
  else if Parcel.f2 c = 2#2 then
    .ok (.cAndi (Parcel.rs1' c) (Imm.gatherI (Parcel.b12 c) (Parcel.lo5 c)))
  else if Parcel.b12 c = 0#1 then
    if Parcel.mid2 c = 0#2 then .ok (.cSub (Parcel.rs1' c) (Parcel.rd' c))
    else if Parcel.mid2 c = 1#2 then .ok (.cXor (Parcel.rs1' c) (Parcel.rd' c))
    else if Parcel.mid2 c = 2#2 then .ok (.cOr (Parcel.rs1' c) (Parcel.rd' c))
    else .ok (.cAnd (Parcel.rs1' c) (Parcel.rd' c))
  else if Parcel.mid2 c = 0#2 ∧ x = .rv64 then .ok (.cSubw (Parcel.rs1' c) (Parcel.rd' c))
  else if Parcel.mid2 c = 1#2 ∧ x = .rv64 then .ok (.cAddw (Parcel.rs1' c) (Parcel.rd' c))
  else .error .reservedParcel

/-- Quadrant 01 (R242). -/
def decodeQ1 (x : Xlen) (c : BitVec 16) : Except Reject Instr :=
  if Parcel.funct3 c = 0#3 then
    if Parcel.rd c = 0#5 then .ok (.cNop (Imm.gatherI (Parcel.b12 c) (Parcel.lo5 c)))
    else .ok (.cAddi (Parcel.rd c) (Imm.gatherI (Parcel.b12 c) (Parcel.lo5 c)))
  else if Parcel.funct3 c = 1#3 then
    match x with
    | .rv32 => .ok (.cJal (Imm.gatherCJ (Parcel.imm11 c)))
    | .rv64 =>
      if Parcel.rd c = 0#5 then .error .reservedParcel
      else .ok (.cAddiw (Parcel.rd c) (Imm.gatherI (Parcel.b12 c) (Parcel.lo5 c)))
  else if Parcel.funct3 c = 2#3 then
    .ok (.cLi (Parcel.rd c) (Imm.gatherI (Parcel.b12 c) (Parcel.lo5 c)))
  else if Parcel.funct3 c = 3#3 then
    if Imm.gatherI (Parcel.b12 c) (Parcel.lo5 c) = 0#6 then .error .reservedParcel
    else if Parcel.rd c = 2#5 then .ok (.cAddi16sp (Imm.gather16 (Parcel.b12 c) (Parcel.lo5 c)))
    else .ok (.cLui (Parcel.rd c) (Imm.gatherI (Parcel.b12 c) (Parcel.lo5 c)))
  else if Parcel.funct3 c = 4#3 then decodeQ1Alu x c
  else if Parcel.funct3 c = 5#3 then .ok (.cJ (Imm.gatherCJ (Parcel.imm11 c)))
  else if Parcel.funct3 c = 6#3 then
    .ok (.cBeqz (Parcel.rs1' c) (Imm.gatherCB (Parcel.hi3 c) (Parcel.lo5 c)))
  else .ok (.cBnez (Parcel.rs1' c) (Imm.gatherCB (Parcel.hi3 c) (Parcel.lo5 c)))

/-- Quadrant 10, `funct3` 100: the CR forms (R242). -/
def decodeQ2Cr (c : BitVec 16) : Except Reject Instr :=
  if Parcel.b12 c = 0#1 then
    if Parcel.lo5 c = 0#5 then
      if Parcel.rd c = 0#5 then .error .reservedParcel else .ok (.cJr (Parcel.rd c))
    else .ok (.cMv (Parcel.rd c) (Parcel.lo5 c))
  else if Parcel.lo5 c = 0#5 then
    if Parcel.rd c = 0#5 then .ok .cEbreak else .ok (.cJalr (Parcel.rd c))
  else .ok (.cAdd (Parcel.rd c) (Parcel.lo5 c))

/-- Quadrant 10 (R242). -/
def decodeQ2 (x : Xlen) (c : BitVec 16) : Except Reject Instr :=
  if Parcel.funct3 c = 0#3 then
    if x = .rv32 ∧ Parcel.b12 c = 1#1 then .error .reservedParcel
    else .ok (.cSlli (Parcel.rd c) (Imm.gatherI (Parcel.b12 c) (Parcel.lo5 c)))
  else if Parcel.funct3 c = 1#3 then
    .ok (.cFldsp (Parcel.rd c) (Imm.gatherLdsp (Parcel.b12 c) (Parcel.lo5 c)))
  else if Parcel.funct3 c = 2#3 then
    if Parcel.rd c = 0#5 then .error .reservedParcel
    else .ok (.cLwsp (Parcel.rd c) (Imm.gatherLwsp (Parcel.b12 c) (Parcel.lo5 c)))
  else if Parcel.funct3 c = 3#3 then
    match x with
    | .rv32 => .ok (.cFlwsp (Parcel.rd c) (Imm.gatherLwsp (Parcel.b12 c) (Parcel.lo5 c)))
    | .rv64 =>
      if Parcel.rd c = 0#5 then .error .reservedParcel
      else .ok (.cLdsp (Parcel.rd c) (Imm.gatherLdsp (Parcel.b12 c) (Parcel.lo5 c)))
  else if Parcel.funct3 c = 4#3 then decodeQ2Cr c
  else if Parcel.funct3 c = 5#3 then .ok (.cFsdsp (Parcel.lo5 c) (Imm.gatherSdsp (Parcel.imm6 c)))
  else if Parcel.funct3 c = 6#3 then .ok (.cSwsp (Parcel.lo5 c) (Imm.gatherSwsp (Parcel.imm6 c)))
  else
    match x with
    | .rv32 => .ok (.cFswsp (Parcel.lo5 c) (Imm.gatherSwsp (Parcel.imm6 c)))
    | .rv64 => .ok (.cSdsp (Parcel.lo5 c) (Imm.gatherSdsp (Parcel.imm6 c)))

/-- A 16-bit parcel, by quadrant (R221, R242). -/
def decode16 (x : Xlen) (c : BitVec 16) : Except Reject Instr :=
  if Parcel.quad c = 0#2 then decodeQ0 x c
  else if Parcel.quad c = 1#2 then decodeQ1 x c
  else if Parcel.quad c = 2#2 then decodeQ2 x c
  else .error .reservedParcel

/-- `Decode(inst, ilen)` (R233), with `C_ENABLED` (R222). -/
def decodeInst (x : Xlen) (cEnabled : Bool) : InstWord → Except Reject Instr
  | .half c => if cEnabled then decode16 x c else .error .compressedDisabled
  | .full w => decode32 x w

/-- Two bytes as a little-endian parcel (R150). -/
def parcelOf (b0 b1 : Byte) : BitVec 16 := b1 ++ b0

/-- The first instruction word of a byte string: a parcel whose low two bits are 11 takes the next parcel with it
(R150, R220, R221). -/
def takeWord : List Byte → Except Reject (InstWord × List Byte)
  | b0 :: b1 :: rest =>
    if (parcelOf b0 b1).extractLsb' 0 2 = 3#2 then
      match rest with
      | b2 :: b3 :: rest' => .ok (.full (parcelOf b2 b3 ++ parcelOf b0 b1), rest')
      | _ => .error .truncated
    else .ok (.half (parcelOf b0 b1), rest)
  | _ => .error .truncated

/-- Decoding, total on any bytes: the instruction and the bytes after it, or the reason there is none. -/
def decodeBytes (x : Xlen) (cEnabled : Bool) (bs : List Byte) : Except Reject (Instr × List Byte) :=
  match takeWord bs with
  | .error e => .error e
  | .ok (iw, rest) =>
    match decodeInst x cEnabled iw with
    | .error e => .error e
    | .ok i => .ok (i, rest)

/-! ### The encoder -/

/-- The R format, the cut of every 32-bit word (R223). -/
def rType (f7 : BitVec 7) (rs2 rs1 : Reg) (f3 : BitVec 3) (rd : Reg) (op : BitVec 7) : BitVec 32 :=
  f7 ++ rs2 ++ rs1 ++ f3 ++ rd ++ op

/-- The I format (R223). -/
def iType (imm : BitVec 12) (rs1 : Reg) (f3 : BitVec 3) (rd : Reg) (op : BitVec 7) : BitVec 32 :=
  imm ++ rs1 ++ f3 ++ rd ++ op

/-- The U and J formats (R223). -/
def uType (imm : BitVec 20) (rd : Reg) (op : BitVec 7) : BitVec 32 :=
  imm ++ rd ++ op

/-- An OP-IMM shift: `funct6` and the 6-bit amount in the immediate field (R225). -/
def shiftType (f6 : BitVec 6) (shamt : BitVec 6) (rs1 : Reg) (f3 : BitVec 3) (rd : Reg) : BitVec 32 :=
  f6 ++ shamt ++ rs1 ++ f3 ++ rd ++ 0b0010011#7

/-- The S format (R223, R224). -/
def sType (imm : BitVec 12) (rs2 rs1 : Reg) (f3 : BitVec 3) : BitVec 32 :=
  rType (imm.extractLsb' 5 7) rs2 rs1 f3 (imm.extractLsb' 0 5) 0b0100011#7

/-- The B format (R223, R224). -/
def bType (imm : BitVec 12) (rs2 rs1 : Reg) (f3 : BitVec 3) : BitVec 32 :=
  rType (Imm.scatterBHi imm) rs2 rs1 f3 (Imm.scatterBLo imm) 0b1100011#7

/-- The AMO format: `funct5`, `aq`, `rl` (R225). -/
def amoType (f5 : BitVec 5) (aq rl : Bool) (rs2 rs1 : Reg) (f3 : BitVec 3) (rd : Reg) : BitVec 32 :=
  f5 ++ BitVec.ofBool aq ++ BitVec.ofBool rl ++ rs2 ++ rs1 ++ f3 ++ rd ++ 0b0101111#7

/-- FENCE: `fm`, `pred`, `succ` (R225). -/
def fenceType (fm pred succ : BitVec 4) (rs1 : Reg) (rd : Reg) : BitVec 32 :=
  fm ++ pred ++ succ ++ rs1 ++ 0#3 ++ rd ++ 0b0001111#7

/-- The CR, CI formats (R240): bits 15:13, 12, 11:7, 6:2, 1:0. -/
def ciType (f3 : BitVec 3) (b : BitVec 1) (r : Reg) (lo : BitVec 5) (q : BitVec 2) : BitVec 16 :=
  f3 ++ b ++ r ++ lo ++ q

/-- The CSS format (R240). -/
def cssType (f3 : BitVec 3) (imm : BitVec 6) (rs2 : Reg) : BitVec 16 :=
  f3 ++ imm ++ rs2 ++ 2#2

/-- The CIW format (R240). -/
def ciwType (imm : BitVec 8) (rd : CReg) : BitVec 16 :=
  0#3 ++ imm ++ rd ++ 0#2

/-- The CL and CS formats (R240). -/
def clType (f3 : BitVec 3) (hi : BitVec 3) (rs1 : CReg) (mid : BitVec 2) (r : CReg) : BitVec 16 :=
  f3 ++ hi ++ rs1 ++ mid ++ r ++ 0#2

/-- The CA format (R240): quadrant 01, `funct3` 100, bits 11:10 = 11. -/
def caType (b : BitVec 1) (r : CReg) (mid : BitVec 2) (rs2 : CReg) : BitVec 16 :=
  4#3 ++ b ++ 3#2 ++ r ++ mid ++ rs2 ++ 1#2

/-- The CB format of the shifts and C.ANDI (R240). -/
def cbAluType (b : BitVec 1) (f2 : BitVec 2) (r : CReg) (lo : BitVec 5) : BitVec 16 :=
  4#3 ++ b ++ f2 ++ r ++ lo ++ 1#2

/-- The CB format of the branches (R240). -/
def cbType (f3 : BitVec 3) (hi : BitVec 3) (r : CReg) (lo : BitVec 5) : BitVec 16 :=
  f3 ++ hi ++ r ++ lo ++ 1#2

/-- The CJ format (R240). -/
def cjType (f3 : BitVec 3) (t : BitVec 11) : BitVec 16 :=
  f3 ++ t ++ 1#2

/-- The words of an instruction: its row's `match` with the fields at the row's positions (R234). -/
def encode : Instr → InstWord
  | .lui rd imm => .full (uType imm rd 0b0110111#7)
  | .auipc rd imm => .full (uType imm rd 0b0010111#7)
  | .addi rd rs1 imm => .full (iType imm rs1 0#3 rd 0b0010011#7)
  | .slti rd rs1 imm => .full (iType imm rs1 2#3 rd 0b0010011#7)
  | .sltiu rd rs1 imm => .full (iType imm rs1 3#3 rd 0b0010011#7)
  | .xori rd rs1 imm => .full (iType imm rs1 4#3 rd 0b0010011#7)
  | .ori rd rs1 imm => .full (iType imm rs1 6#3 rd 0b0010011#7)
  | .andi rd rs1 imm => .full (iType imm rs1 7#3 rd 0b0010011#7)
  | .slli rd rs1 shamt => .full (shiftType 0#6 shamt rs1 1#3 rd)
  | .srli rd rs1 shamt => .full (shiftType 0#6 shamt rs1 5#3 rd)
  | .srai rd rs1 shamt => .full (shiftType 16#6 shamt rs1 5#3 rd)
  | .add rd rs1 rs2 => .full (rType 0#7 rs2 rs1 0#3 rd 0b0110011#7)
  | .sub rd rs1 rs2 => .full (rType 32#7 rs2 rs1 0#3 rd 0b0110011#7)
  | .sll rd rs1 rs2 => .full (rType 0#7 rs2 rs1 1#3 rd 0b0110011#7)
  | .slt rd rs1 rs2 => .full (rType 0#7 rs2 rs1 2#3 rd 0b0110011#7)
  | .sltu rd rs1 rs2 => .full (rType 0#7 rs2 rs1 3#3 rd 0b0110011#7)
  | .xor rd rs1 rs2 => .full (rType 0#7 rs2 rs1 4#3 rd 0b0110011#7)
  | .srl rd rs1 rs2 => .full (rType 0#7 rs2 rs1 5#3 rd 0b0110011#7)
  | .sra rd rs1 rs2 => .full (rType 32#7 rs2 rs1 5#3 rd 0b0110011#7)
  | .or rd rs1 rs2 => .full (rType 0#7 rs2 rs1 6#3 rd 0b0110011#7)
  | .and rd rs1 rs2 => .full (rType 0#7 rs2 rs1 7#3 rd 0b0110011#7)
  | .addiw rd rs1 imm => .full (iType imm rs1 0#3 rd 0b0011011#7)
  | .slliw rd rs1 shamt => .full (rType 0#7 shamt rs1 1#3 rd 0b0011011#7)
  | .srliw rd rs1 shamt => .full (rType 0#7 shamt rs1 5#3 rd 0b0011011#7)
  | .sraiw rd rs1 shamt => .full (rType 32#7 shamt rs1 5#3 rd 0b0011011#7)
  | .addw rd rs1 rs2 => .full (rType 0#7 rs2 rs1 0#3 rd 0b0111011#7)
  | .subw rd rs1 rs2 => .full (rType 32#7 rs2 rs1 0#3 rd 0b0111011#7)
  | .sllw rd rs1 rs2 => .full (rType 0#7 rs2 rs1 1#3 rd 0b0111011#7)
  | .srlw rd rs1 rs2 => .full (rType 0#7 rs2 rs1 5#3 rd 0b0111011#7)
  | .sraw rd rs1 rs2 => .full (rType 32#7 rs2 rs1 5#3 rd 0b0111011#7)
  | .mul rd rs1 rs2 => .full (rType 1#7 rs2 rs1 0#3 rd 0b0110011#7)
  | .mulh rd rs1 rs2 => .full (rType 1#7 rs2 rs1 1#3 rd 0b0110011#7)
  | .mulhsu rd rs1 rs2 => .full (rType 1#7 rs2 rs1 2#3 rd 0b0110011#7)
  | .mulhu rd rs1 rs2 => .full (rType 1#7 rs2 rs1 3#3 rd 0b0110011#7)
  | .div rd rs1 rs2 => .full (rType 1#7 rs2 rs1 4#3 rd 0b0110011#7)
  | .divu rd rs1 rs2 => .full (rType 1#7 rs2 rs1 5#3 rd 0b0110011#7)
  | .rem rd rs1 rs2 => .full (rType 1#7 rs2 rs1 6#3 rd 0b0110011#7)
  | .remu rd rs1 rs2 => .full (rType 1#7 rs2 rs1 7#3 rd 0b0110011#7)
  | .mulw rd rs1 rs2 => .full (rType 1#7 rs2 rs1 0#3 rd 0b0111011#7)
  | .divw rd rs1 rs2 => .full (rType 1#7 rs2 rs1 4#3 rd 0b0111011#7)
  | .divuw rd rs1 rs2 => .full (rType 1#7 rs2 rs1 5#3 rd 0b0111011#7)
  | .remw rd rs1 rs2 => .full (rType 1#7 rs2 rs1 6#3 rd 0b0111011#7)
  | .remuw rd rs1 rs2 => .full (rType 1#7 rs2 rs1 7#3 rd 0b0111011#7)
  | .jal rd imm => .full (uType (Imm.scatterJ imm) rd 0b1101111#7)
  | .jalr rd rs1 imm => .full (iType imm rs1 0#3 rd 0b1100111#7)
  | .beq rs1 rs2 imm => .full (bType imm rs2 rs1 0#3)
  | .bne rs1 rs2 imm => .full (bType imm rs2 rs1 1#3)
  | .blt rs1 rs2 imm => .full (bType imm rs2 rs1 4#3)
  | .bge rs1 rs2 imm => .full (bType imm rs2 rs1 5#3)
  | .bltu rs1 rs2 imm => .full (bType imm rs2 rs1 6#3)
  | .bgeu rs1 rs2 imm => .full (bType imm rs2 rs1 7#3)
  | .lb rd rs1 imm => .full (iType imm rs1 0#3 rd 0b0000011#7)
  | .lh rd rs1 imm => .full (iType imm rs1 1#3 rd 0b0000011#7)
  | .lw rd rs1 imm => .full (iType imm rs1 2#3 rd 0b0000011#7)
  | .ld rd rs1 imm => .full (iType imm rs1 3#3 rd 0b0000011#7)
  | .lbu rd rs1 imm => .full (iType imm rs1 4#3 rd 0b0000011#7)
  | .lhu rd rs1 imm => .full (iType imm rs1 5#3 rd 0b0000011#7)
  | .lwu rd rs1 imm => .full (iType imm rs1 6#3 rd 0b0000011#7)
  | .sb rs1 rs2 imm => .full (sType imm rs2 rs1 0#3)
  | .sh rs1 rs2 imm => .full (sType imm rs2 rs1 1#3)
  | .sw rs1 rs2 imm => .full (sType imm rs2 rs1 2#3)
  | .sd rs1 rs2 imm => .full (sType imm rs2 rs1 3#3)
  | .lrW aq rl rd rs1 => .full (amoType 2#5 aq rl 0#5 rs1 2#3 rd)
  | .lrD aq rl rd rs1 => .full (amoType 2#5 aq rl 0#5 rs1 3#3 rd)
  | .scW aq rl rd rs1 rs2 => .full (amoType 3#5 aq rl rs2 rs1 2#3 rd)
  | .scD aq rl rd rs1 rs2 => .full (amoType 3#5 aq rl rs2 rs1 3#3 rd)
  | .amoswapW aq rl rd rs1 rs2 => .full (amoType 1#5 aq rl rs2 rs1 2#3 rd)
  | .amoswapD aq rl rd rs1 rs2 => .full (amoType 1#5 aq rl rs2 rs1 3#3 rd)
  | .amoaddW aq rl rd rs1 rs2 => .full (amoType 0#5 aq rl rs2 rs1 2#3 rd)
  | .amoaddD aq rl rd rs1 rs2 => .full (amoType 0#5 aq rl rs2 rs1 3#3 rd)
  | .amoxorW aq rl rd rs1 rs2 => .full (amoType 4#5 aq rl rs2 rs1 2#3 rd)
  | .amoxorD aq rl rd rs1 rs2 => .full (amoType 4#5 aq rl rs2 rs1 3#3 rd)
  | .amoandW aq rl rd rs1 rs2 => .full (amoType 12#5 aq rl rs2 rs1 2#3 rd)
  | .amoandD aq rl rd rs1 rs2 => .full (amoType 12#5 aq rl rs2 rs1 3#3 rd)
  | .amoorW aq rl rd rs1 rs2 => .full (amoType 8#5 aq rl rs2 rs1 2#3 rd)
  | .amoorD aq rl rd rs1 rs2 => .full (amoType 8#5 aq rl rs2 rs1 3#3 rd)
  | .amominW aq rl rd rs1 rs2 => .full (amoType 16#5 aq rl rs2 rs1 2#3 rd)
  | .amominD aq rl rd rs1 rs2 => .full (amoType 16#5 aq rl rs2 rs1 3#3 rd)
  | .amomaxW aq rl rd rs1 rs2 => .full (amoType 20#5 aq rl rs2 rs1 2#3 rd)
  | .amomaxD aq rl rd rs1 rs2 => .full (amoType 20#5 aq rl rs2 rs1 3#3 rd)
  | .amominuW aq rl rd rs1 rs2 => .full (amoType 24#5 aq rl rs2 rs1 2#3 rd)
  | .amominuD aq rl rd rs1 rs2 => .full (amoType 24#5 aq rl rs2 rs1 3#3 rd)
  | .amomaxuW aq rl rd rs1 rs2 => .full (amoType 28#5 aq rl rs2 rs1 2#3 rd)
  | .amomaxuD aq rl rd rs1 rs2 => .full (amoType 28#5 aq rl rs2 rs1 3#3 rd)
  | .csrrw rd rs1 csr => .full (iType csr rs1 1#3 rd 0b1110011#7)
  | .csrrs rd rs1 csr => .full (iType csr rs1 2#3 rd 0b1110011#7)
  | .csrrc rd rs1 csr => .full (iType csr rs1 3#3 rd 0b1110011#7)
  | .csrrwi rd uimm csr => .full (iType csr uimm 5#3 rd 0b1110011#7)
  | .csrrsi rd uimm csr => .full (iType csr uimm 6#3 rd 0b1110011#7)
  | .csrrci rd uimm csr => .full (iType csr uimm 7#3 rd 0b1110011#7)
  | .fence fm pred succ rs1 rd => .full (fenceType fm pred succ rs1 rd)
  | .fenceI imm rs1 rd => .full (iType imm rs1 1#3 rd 0b0001111#7)
  | .ecall => .full 0x00000073#32
  | .ebreak => .full 0x00100073#32
  | .sret => .full 0x10200073#32
  | .mret => .full 0x30200073#32
  | .wfi => .full 0x10500073#32
  | .sfenceVma rs1 rs2 => .full (rType 9#7 rs2 rs1 0#3 0#5 0b1110011#7)
  | .cAddi4spn rd uimm => .half (ciwType (Imm.scatterSpn uimm) rd)
  | .cFld rd rs1 uimm => .half (clType 1#3 (Imm.scatterDHi uimm) rs1 (Imm.scatterDMid uimm) rd)
  | .cLw rd rs1 uimm => .half (clType 2#3 (Imm.scatterWHi uimm) rs1 (Imm.scatterWMid uimm) rd)
  | .cFlw rd rs1 uimm => .half (clType 3#3 (Imm.scatterWHi uimm) rs1 (Imm.scatterWMid uimm) rd)
  | .cLd rd rs1 uimm => .half (clType 3#3 (Imm.scatterDHi uimm) rs1 (Imm.scatterDMid uimm) rd)
  | .cFsd rs1 rs2 uimm => .half (clType 5#3 (Imm.scatterDHi uimm) rs1 (Imm.scatterDMid uimm) rs2)
  | .cSw rs1 rs2 uimm => .half (clType 6#3 (Imm.scatterWHi uimm) rs1 (Imm.scatterWMid uimm) rs2)
  | .cFsw rs1 rs2 uimm => .half (clType 7#3 (Imm.scatterWHi uimm) rs1 (Imm.scatterWMid uimm) rs2)
  | .cSd rs1 rs2 uimm => .half (clType 7#3 (Imm.scatterDHi uimm) rs1 (Imm.scatterDMid uimm) rs2)
  | .cNop imm => .half (ciType 0#3 (Imm.scatterIB imm) 0#5 (Imm.scatterILo imm) 1#2)
  | .cAddi rd imm => .half (ciType 0#3 (Imm.scatterIB imm) rd (Imm.scatterILo imm) 1#2)
  | .cJal imm => .half (cjType 1#3 (Imm.scatterCJ imm))
  | .cAddiw rd imm => .half (ciType 1#3 (Imm.scatterIB imm) rd (Imm.scatterILo imm) 1#2)
  | .cLi rd imm => .half (ciType 2#3 (Imm.scatterIB imm) rd (Imm.scatterILo imm) 1#2)
  | .cAddi16sp imm => .half (ciType 3#3 (Imm.scatter16B imm) 2#5 (Imm.scatter16Lo imm) 1#2)
  | .cLui rd imm => .half (ciType 3#3 (Imm.scatterIB imm) rd (Imm.scatterILo imm) 1#2)
  | .cSrli rd shamt => .half (cbAluType (Imm.scatterIB shamt) 0#2 rd (Imm.scatterILo shamt))
  | .cSrai rd shamt => .half (cbAluType (Imm.scatterIB shamt) 1#2 rd (Imm.scatterILo shamt))
  | .cAndi rd imm => .half (cbAluType (Imm.scatterIB imm) 2#2 rd (Imm.scatterILo imm))
  | .cSub rd rs2 => .half (caType 0#1 rd 0#2 rs2)
  | .cXor rd rs2 => .half (caType 0#1 rd 1#2 rs2)
  | .cOr rd rs2 => .half (caType 0#1 rd 2#2 rs2)
  | .cAnd rd rs2 => .half (caType 0#1 rd 3#2 rs2)
  | .cSubw rd rs2 => .half (caType 1#1 rd 0#2 rs2)
  | .cAddw rd rs2 => .half (caType 1#1 rd 1#2 rs2)
  | .cJ imm => .half (cjType 5#3 (Imm.scatterCJ imm))
  | .cBeqz rs1 imm => .half (cbType 6#3 (Imm.scatterCBHi imm) rs1 (Imm.scatterCBLo imm))
  | .cBnez rs1 imm => .half (cbType 7#3 (Imm.scatterCBHi imm) rs1 (Imm.scatterCBLo imm))
  | .cSlli rd shamt => .half (ciType 0#3 (Imm.scatterIB shamt) rd (Imm.scatterILo shamt) 2#2)
  | .cFldsp rd uimm => .half (ciType 1#3 (Imm.scatterLdspB uimm) rd (Imm.scatterLdspLo uimm) 2#2)
  | .cLwsp rd uimm => .half (ciType 2#3 (Imm.scatterLwspB uimm) rd (Imm.scatterLwspLo uimm) 2#2)
  | .cFlwsp rd uimm => .half (ciType 3#3 (Imm.scatterLwspB uimm) rd (Imm.scatterLwspLo uimm) 2#2)
  | .cLdsp rd uimm => .half (ciType 3#3 (Imm.scatterLdspB uimm) rd (Imm.scatterLdspLo uimm) 2#2)
  | .cJr rs1 => .half (ciType 4#3 0#1 rs1 0#5 2#2)
  | .cMv rd rs2 => .half (ciType 4#3 0#1 rd rs2 2#2)
  | .cEbreak => .half 0x9002#16
  | .cJalr rs1 => .half (ciType 4#3 1#1 rs1 0#5 2#2)
  | .cAdd rd rs2 => .half (ciType 4#3 1#1 rd rs2 2#2)
  | .cFsdsp rs2 uimm => .half (cssType 5#3 (Imm.scatterSdsp uimm) rs2)
  | .cSwsp rs2 uimm => .half (cssType 6#3 (Imm.scatterSwsp uimm) rs2)
  | .cFswsp rs2 uimm => .half (cssType 7#3 (Imm.scatterSwsp uimm) rs2)
  | .cSdsp rs2 uimm => .half (cssType 7#3 (Imm.scatterSdsp uimm) rs2)

/-- The instruction bits, zero-extended: the trap value of IllegalInstruction (R247). -/
def InstWord.bits : InstWord → Word
  | .half c => c.setWidth 64
  | .full w => w.setWidth 64

/-- `ilen`, the encoded length in bytes (R13, R221). -/
def InstWord.ilen : InstWord → Nat
  | .half _ => 2
  | .full _ => 4

/-- The bytes of an instruction word, the first at the lowest address (R150). -/
def InstWord.bytes : InstWord → List Byte
  | .half c => [c.extractLsb' 0 8, c.extractLsb' 8 8]
  | .full w => [w.extractLsb' 0 8, w.extractLsb' 8 8, w.extractLsb' 16 8, w.extractLsb' 24 8]

/-- `rd'`, `rs1'`, `rs2'` name `x(8 + value)` (R42). -/
def CReg.reg (r : CReg) : Reg := 1#2 ++ r

/-- The base expansion of a compressed instruction (R540 to R583).  A base instruction has none, nor has a
floating-point form, whose base instruction this hardware does not have (R585). -/
def Instr.expansion : Instr → Option Instr
  | .cAddi4spn rd uimm => some (.addi (CReg.reg rd) 2#5 ((uimm ++ 0#2).setWidth 12))
  | .cLw rd rs1 uimm => some (.lw (CReg.reg rd) (CReg.reg rs1) ((uimm ++ 0#2).setWidth 12))
  | .cLd rd rs1 uimm => some (.ld (CReg.reg rd) (CReg.reg rs1) ((uimm ++ 0#3).setWidth 12))
  | .cSw rs1 rs2 uimm => some (.sw (CReg.reg rs1) (CReg.reg rs2) ((uimm ++ 0#2).setWidth 12))
  | .cSd rs1 rs2 uimm => some (.sd (CReg.reg rs1) (CReg.reg rs2) ((uimm ++ 0#3).setWidth 12))
  | .cNop imm => some (.addi 0#5 0#5 (imm.signExtend 12))
  | .cAddi rd imm => some (.addi rd rd (imm.signExtend 12))
  | .cJal imm => some (.jal 1#5 (imm.signExtend 20))
  | .cAddiw rd imm => some (.addiw rd rd (imm.signExtend 12))
  | .cLi rd imm => some (.addi rd 0#5 (imm.signExtend 12))
  | .cAddi16sp imm => some (.addi 2#5 2#5 ((imm ++ 0#4).signExtend 12))
  | .cLui rd imm => some (.lui rd (imm.signExtend 20))
  | .cSrli rd shamt => some (.srli (CReg.reg rd) (CReg.reg rd) shamt)
  | .cSrai rd shamt => some (.srai (CReg.reg rd) (CReg.reg rd) shamt)
  | .cAndi rd imm => some (.andi (CReg.reg rd) (CReg.reg rd) (imm.signExtend 12))
  | .cSub rd rs2 => some (.sub (CReg.reg rd) (CReg.reg rd) (CReg.reg rs2))
  | .cXor rd rs2 => some (.xor (CReg.reg rd) (CReg.reg rd) (CReg.reg rs2))
  | .cOr rd rs2 => some (.or (CReg.reg rd) (CReg.reg rd) (CReg.reg rs2))
  | .cAnd rd rs2 => some (.and (CReg.reg rd) (CReg.reg rd) (CReg.reg rs2))
  | .cSubw rd rs2 => some (.subw (CReg.reg rd) (CReg.reg rd) (CReg.reg rs2))
  | .cAddw rd rs2 => some (.addw (CReg.reg rd) (CReg.reg rd) (CReg.reg rs2))
  | .cJ imm => some (.jal 0#5 (imm.signExtend 20))
  | .cBeqz rs1 imm => some (.beq (CReg.reg rs1) 0#5 (imm.signExtend 12))
  | .cBnez rs1 imm => some (.bne (CReg.reg rs1) 0#5 (imm.signExtend 12))
  | .cSlli rd shamt => some (.slli rd rd shamt)
  | .cLwsp rd uimm => some (.lw rd 2#5 ((uimm ++ 0#2).setWidth 12))
  | .cLdsp rd uimm => some (.ld rd 2#5 ((uimm ++ 0#3).setWidth 12))
  | .cJr rs1 => some (.jalr 0#5 rs1 0#12)
  | .cMv rd rs2 => some (.add rd 0#5 rs2)
  | .cEbreak => some .ebreak
  | .cJalr rs1 => some (.jalr 1#5 rs1 0#12)
  | .cAdd rd rs2 => some (.add rd rd rs2)
  | .cSwsp rs2 uimm => some (.sw 2#5 rs2 ((uimm ++ 0#2).setWidth 12))
  | .cSdsp rs2 uimm => some (.sd 2#5 rs2 ((uimm ++ 0#3).setWidth 12))
  | .lui .. | .auipc .. | .addi .. | .slti .. | .sltiu .. | .xori .. | .ori .. | .andi .. | .slli .. | .srli .. |
    .srai .. | .add .. | .sub .. | .sll .. | .slt .. | .sltu .. | .xor .. | .srl .. | .sra .. | .or .. | .and .. |
    .addiw .. | .slliw .. | .srliw .. | .sraiw .. | .addw .. | .subw .. | .sllw .. | .srlw .. | .sraw .. | .mul .. |
    .mulh .. | .mulhsu .. | .mulhu .. | .div .. | .divu .. | .rem .. | .remu .. | .mulw .. | .divw .. | .divuw .. |
    .remw .. | .remuw .. | .jal .. | .jalr .. | .beq .. | .bne .. | .blt .. | .bge .. | .bltu .. | .bgeu .. | .lb ..
    | .lh .. | .lw .. | .ld .. | .lbu .. | .lhu .. | .lwu .. | .sb .. | .sh .. | .sw .. | .sd .. | .lrW .. | .lrD ..
    | .scW .. | .scD .. | .amoswapW .. | .amoswapD .. | .amoaddW .. | .amoaddD .. | .amoxorW .. | .amoxorD .. |
    .amoandW .. | .amoandD .. | .amoorW .. | .amoorD .. | .amominW .. | .amominD .. | .amomaxW .. | .amomaxD .. |
    .amominuW .. | .amominuD .. | .amomaxuW .. | .amomaxuD .. | .csrrw .. | .csrrs .. | .csrrc .. | .csrrwi .. |
    .csrrsi .. | .csrrci .. | .fence .. | .fenceI .. | .ecall | .ebreak | .sret | .mret | .wfi | .sfenceVma .. |
    .cFld .. | .cFlw .. | .cFsd .. | .cFsw .. | .cFldsp .. | .cFlwsp .. | .cFsdsp .. | .cFswsp .. => none

/-! ### The host's words -/

/-- The first four bytes of a table word: bit 0 is the least significant bit of the first parcel, every bit from
`nbits` up is 0, and the hardware stores each word little-endian (R150). -/
def tableBytes (nbits w : Nat) : List Byte :=
  (InstWord.full (BitVec.ofNat 32 (w % 2 ^ nbits))).bytes

/-- The instruction the decoder reads from a table word, at the XLEN the machine has after reset (Config.xlen; DESIGN
CHOICE, log entry 13). -/
def decodeTableWord (nbits w : Nat) : Option Instr :=
  match decodeBytes Config.xlen (Params.hardware Config.xlen).cEnabled (tableBytes nbits w) with
  | .ok (i, _) => some i
  | .error _ => none

end Sys2Proof
end

