-- ==== Sys2Proof/Machine/Flags.lean ====
section
/-! DEFINITION. The hart has no flags, condition codes or predicate registers (spec/10_state.md R46): no instruction
reads or writes one.  What takes their place is the comparison of two operands, which branches act on and
set-less-than instructions write; those comparisons are here. -/

namespace Sys2Proof.Machine

/-- `a <s b` (R11). -/
def ltSigned {w : Nat} (a b : BitVec w) : Bool := a.slt b

/-- `a <u b` (R11). -/
def ltUnsigned {w : Nat} (a b : BitVec w) : Bool := a.ult b

/-- `a = b`. -/
def eqBits {w : Nat} (a b : BitVec w) : Bool := a == b

end Sys2Proof.Machine
end

