-- ==== Sys2Proof/Machine/Operands.lean ====
section
/-! DEFINITION. Operand forms: the immediates of spec/30_encoding.md R224, R225 and R241 as register-wide values, and
the arithmetic of the register forms, written once for every width (spec/40_integer.md, 41_muldiv.md).  On RV32 the bits
above 31 of an immediate are dropped by the operation that uses it. -/

namespace Sys2Proof.Machine

open Sys2Proof

/-! ### Immediates -/

/-- `immI`, `immS` (R224). -/
def imm12 (i : BitVec 12) : Word := i.signExtend 64
/-- `immB` from `imm[12:1]` (R224). -/
def immB (i : BitVec 12) : Word := (i ++ 0#1).signExtend 64
/-- `immU` from `imm[31:12]` (R224). -/
def immU (i : BitVec 20) : Word := (i ++ 0#12).signExtend 64
/-- `immJ` from `imm[20:1]` (R224). -/
def immJ (i : BitVec 20) : Word := (i ++ 0#1).signExtend 64
/-- a CSR immediate, `zext_5` (R225) -/
def uimm5 (i : BitVec 5) : Word := i.setWidth 64
/-- the CI immediate `imm[5:0]`, sign-extended (R241) -/
def imm6 (i : BitVec 6) : Word := i.signExtend 64
/-- C.LUI `nzimm[17:12]` (R241, R556) -/
def immCLui (i : BitVec 6) : Word := (i ++ 0#12).signExtend 64
/-- C.ADDI16SP `nzimm[9:4]` (R241, R555) -/
def immC16sp (i : BitVec 6) : Word := (i ++ 0#4).signExtend 64
/-- C.ADDI4SPN `nzuimm[9:2]` (R241, R541) -/
def uimmC4spn (i : BitVec 8) : Word := (i ++ 0#2).setWidth 64
/-- C.LW, C.SW `uimm[6:2]` (R241) -/
def uimmCW (i : BitVec 5) : Word := (i ++ 0#2).setWidth 64
/-- C.LD, C.SD `uimm[7:3]` (R241) -/
def uimmCD (i : BitVec 5) : Word := (i ++ 0#3).setWidth 64
/-- C.LWSP, C.SWSP `uimm[7:2]` (R241) -/
def uimmCWsp (i : BitVec 6) : Word := (i ++ 0#2).setWidth 64
/-- C.LDSP, C.SDSP `uimm[8:3]` (R241) -/
def uimmCDsp (i : BitVec 6) : Word := (i ++ 0#3).setWidth 64
/-- C.J, C.JAL `imm[11:1]` (R241) -/
def immCJ (i : BitVec 11) : Word := (i ++ 0#1).signExtend 64
/-- C.BEQZ, C.BNEZ `imm[8:1]` (R241) -/
def immCB (i : BitVec 8) : Word := (i ++ 0#1).signExtend 64

/-! ### Integer operations at width `w` (R302 to R320) -/

def addOp {w : Nat} (a b : BitVec w) : BitVec w := a + b
def subOp {w : Nat} (a b : BitVec w) : BitVec w := a - b
def xorOp {w : Nat} (a b : BitVec w) : BitVec w := a ^^^ b
def orOp {w : Nat} (a b : BitVec w) : BitVec w := a ||| b
def andOp {w : Nat} (a b : BitVec w) : BitVec w := a &&& b
def sltOp {w : Nat} (a b : BitVec w) : BitVec w := if ltSigned a b then BitVec.ofNat w 1 else BitVec.ofNat w 0
def sltuOp {w : Nat} (a b : BitVec w) : BitVec w := if ltUnsigned a b then BitVec.ofNat w 1 else BitVec.ofNat w 0

/-- The shift amount at width `w`: the low 5 bits at 32, the low 6 bits at 64 (R308, R313). -/
def shiftAmount {w : Nat} (b : BitVec w) : Nat := b.toNat % w

/-- R308, R313 -/
def sllOp {w : Nat} (a b : BitVec w) : BitVec w := a <<< shiftAmount b
/-- R309, R317: zeros enter at the top -/
def srlOp {w : Nat} (a b : BitVec w) : BitVec w := a >>> shiftAmount b
/-- R310, R318: copies of the top bit enter -/
def sraOp {w : Nat} (a b : BitVec w) : BitVec w := a.sshiftRight (shiftAmount b)

/-! ### Multiply and divide at width `w` (R360 to R368) -/

/-- `MIN`, as an integer (R360). -/
def minInt (w : Nat) : Int := -((2 ^ (w - 1) : Nat) : Int)

/-- R361 -/
def mulOp {w : Nat} (a b : BitVec w) : BitVec w := BitVec.ofNat w (a.toNat * b.toNat)
/-- R362; `/` is floor division, the divisor being positive -/
def mulhOp {w : Nat} (a b : BitVec w) : BitVec w := BitVec.ofInt w (a.toInt * b.toInt / ((2 ^ w : Nat) : Int))
/-- R363 -/
def mulhsuOp {w : Nat} (a b : BitVec w) : BitVec w := BitVec.ofInt w (a.toInt * (b.toNat : Int) / ((2 ^ w : Nat) : Int))
/-- R364 -/
def mulhuOp {w : Nat} (a b : BitVec w) : BitVec w := BitVec.ofNat w (a.toNat * b.toNat / 2 ^ w)
/-- R365; `Int.tdiv` rounds toward zero -/
def divOp {w : Nat} (a b : BitVec w) : BitVec w :=
  if b.toInt = 0 then BitVec.allOnes w
  else if a.toInt = minInt w ∧ b.toInt = -1 then BitVec.ofInt w (minInt w)
  else BitVec.ofInt w (a.toInt.tdiv b.toInt)
/-- R366 -/
def divuOp {w : Nat} (a b : BitVec w) : BitVec w :=
  if b.toNat = 0 then BitVec.allOnes w else BitVec.ofNat w (a.toNat / b.toNat)
/-- R367 -/
def remOp {w : Nat} (a b : BitVec w) : BitVec w :=
  if b.toInt = 0 then a
  else if a.toInt = minInt w ∧ b.toInt = -1 then BitVec.ofNat w 0
  else BitVec.ofInt w (a.toInt - b.toInt * a.toInt.tdiv b.toInt)
/-- R368 -/
def remuOp {w : Nat} (a b : BitVec w) : BitVec w :=
  if b.toNat = 0 then a else BitVec.ofNat w (a.toNat % b.toNat)

/-! ### Read-modify-write operations at width `w` (R461 to R478) -/

def swapOp {w : Nat} (_ src : BitVec w) : BitVec w := src
/-- R471, R472 -/
def minOp {w : Nat} (old src : BitVec w) : BitVec w := if old.toInt ≤ src.toInt then old else src
/-- R473, R474 -/
def maxOp {w : Nat} (old src : BitVec w) : BitVec w := if src.toInt ≤ old.toInt then old else src
/-- R475, R476 -/
def minuOp {w : Nat} (old src : BitVec w) : BitVec w := if old.toNat ≤ src.toNat then old else src
/-- R477, R478 -/
def maxuOp {w : Nat} (old src : BitVec w) : BitVec w := if src.toNat ≤ old.toNat then old else src

end Sys2Proof.Machine
end

