-- ==== Sys2Proof/Machine/Ops.lean ====
section
/-! DEFINITION. The operations the meanings share: the registers and the pc (spec/00_scope.md R12, R13), the memory
primitives (20_memory.md R160), taking a trap (60_exceptions.md R640), returning from one (46_system.md R515), the
interrupt check (R634) and the halt conditions (70_reset_and_hazards.md R697). -/

namespace Sys2Proof.Machine

open Sys2Proof

/-! ### Registers and pc -/

/-- `x[r]` (R12, R40). -/
def State.reg (s : State) (r : Reg) : Word := if r = 0#5 then 0#64 else s.regs[r.toNat]'r.isLt

/-- `x[r] <- v` (R12, R40): a write to `x0` is discarded, any other is truncated to XLEN bits. -/
def State.setReg (s : State) (r : Reg) (v : Word) : State :=
  if r = 0#5 then s else { s with regs := s.regs.set r.toNat (truncX s.params.xlen v) r.isLt }

/-- `pc <- t` (R13), at XLEN bits. -/
def State.setPc (s : State) (t : Word) : State := { s with pc := truncX s.params.xlen t }

/-- `npc` of an instruction of `ilen` bytes (R13, R43). -/
def State.npc (s : State) (ilen : Nat) : Word := truncX s.params.xlen (s.pc + BitVec.ofNat 64 ilen)

/-- `pc <- npc` (R44). -/
def State.advance (s : State) (ilen : Nat) : State := s.setPc (s.npc ilen)

/-- The address `x[r] + off`, at XLEN bits (R420, R421). -/
def State.addr (s : State) (r : Reg) (off : Word) : Word := truncX s.params.xlen (s.reg r + off)

/-- `resv <- None` (R453). -/
def State.clearResv (s : State) : State := { s with resv := none }

/-! ### Exceptions -/

/-- The code of an exception (R620). -/
def Exc.code : Exc → Nat
  | .instructionAddressMisaligned => 0
  | .instructionAccessFault => 1
  | .illegalInstruction => 2
  | .breakpoint => 3
  | .loadAddressMisaligned => 4
  | .loadAccessFault => 5
  | .storeAddressMisaligned => 6
  | .storeAccessFault => 7
  | .environmentCallFromU => 8
  | .environmentCallFromS => 9
  | .environmentCallFromM => 11
  | .instructionPageFault => 12
  | .loadPageFault => 13
  | .storePageFault => 15

/-- `{Interrupt, code}`: the Interrupt bit is bit XLEN-1 (R87, R620). -/
def causeWord (x : Xlen) (intr : Bool) (code : Nat) : Word := bitAt (x.bits - 1) intr ||| BitVec.ofNat 64 code

/-- `ExceptionTarget` (R645). -/
def State.excTarget (s : State) (e : Exc) : TrapTarget :=
  if s.csr.medeleg.getLsbD e.code = true ∧ s.priv ≠ .m then .s else .m

/-- `tvec & ~3`, the base of a vector (R85, R642). -/
def tvecBase (tvec : Word) : Word := tvec &&& ~~~3#64

/-- `Vector` (R642). -/
def trapVector (p : Params) (tvec : Word) (intr : Bool) (code : Nat) : Word :=
  if tvec.extractLsb' 0 2 = 1#2 ∧ (intr = true ∨ p.vectoredSync = true) then
    truncX p.xlen (tvecBase tvec + BitVec.ofNat 64 (4 * code))
  else tvecBase tvec

/-- `CheckTrapHalt` (R697 (b), (c)): no handler is installed, or the handler is the pc that raised. -/
def trapHalts (intr : Bool) (tvec newPc epc : Word) : Bool :=
  decide (tvecBase tvec = 0#64) || (!intr && decide (newPc = epc))

/-- The CSR cells after a trap into `target` (R640). -/
def State.trapCsr (s : State) (intr : Bool) (code : Nat) (tval : Word) : TrapTarget → CsrFile
  | .m => { s.csr with
      mepc := epcLegal s.params s.pc
      mcause := causeWord s.params.xlen intr code
      mtval := truncX s.params.xlen tval
      mstatus := { s.csr.mstatus with mpp := s.priv, mpie := s.csr.mstatus.mie, mie := false } }
  | .s => { s.csr with
      sepc := epcLegal s.params s.pc
      scause := causeWord s.params.xlen intr code
      stval := truncX s.params.xlen tval
      mstatus := { s.csr.mstatus with
        spp := decide (s.priv = .s), spie := s.csr.mstatus.sie, sie := false } }

/-- The `xtvec` of a level (R640). -/
def State.tvecOf (s : State) : TrapTarget → Word
  | .m => s.csr.mtvec
  | .s => s.csr.stvec

/-- The mode a trap enters (R640). -/
def TrapTarget.priv : TrapTarget → Priv
  | .m => .m
  | .s => .s

/-- `TrapEntry(intr, code, tval, target)` (R640): the one way into a trap, of an exception or an interrupt.  It alone sets
`trapped`. -/
def State.enterTrap (s : State) (intr : Bool) (code : Nat) (tval : Word) (target : TrapTarget) : State :=
  { s with
    csr := s.trapCsr intr code tval target
    priv := target.priv
    pc := trapVector s.params (s.tvecOf target) intr code
    resv := none
    trapped := true
    haltRequested := s.haltRequested || trapHalts intr (s.tvecOf target)
      (trapVector s.params (s.tvecOf target) intr code) (epcLegal s.params s.pc) }

/-- The state after `raise E(tval)` (R15, R640, R645). -/
def State.excState (s : State) (e : Exc) (tval : Word) : State := s.enterTrap false e.code tval (s.excTarget e)

/-- `raise E(tval)` (R15). -/
def State.raise (s : State) (e : Exc) (tval : Word) : Result := .next (s.excState e tval)

/-! ### Trap return -/

/-- MRET's effect (R516). -/
def State.returnM (s : State) : State :=
  { s with
    csr := { s.csr with mstatus := { s.csr.mstatus with
      mie := s.csr.mstatus.mpie
      mpie := true
      mpp := .u
      mprv := s.csr.mstatus.mprv && decide (s.csr.mstatus.mpp = .m) } }
    resv := none
    priv := s.csr.mstatus.mpp
    pc := s.csr.mepc }

/-- SRET's effect (R517). -/
def State.returnS (s : State) : State :=
  { s with
    csr := { s.csr with mstatus := { s.csr.mstatus with
      sie := s.csr.mstatus.spie
      spie := true
      spp := false
      mprv := false } }
    resv := none
    priv := if s.csr.mstatus.spp then .s else .u
    pc := s.csr.sepc }

/-! ### Interrupts -/

/-- The priority order (R634). -/
def interruptOrder : List Nat := [11, 3, 7, 9, 1, 5]

/-- The first pending and enabled interrupt whose delegation bit is `deleg` (R634). -/
def State.firstPending (s : State) (deleg : Bool) : Option Nat :=
  interruptOrder.find? fun c => (s.csr.mip &&& s.csr.mie).getLsbD c && (s.csr.mideleg.getLsbD c == deleg)

/-- `m_on` (R634). -/
def State.mOn (s : State) : Bool := decide (s.priv ≠ .m) || s.csr.mstatus.mie

/-- `s_on` (R634). -/
def State.sOn (s : State) : Bool := decide (s.priv = .u) || (decide (s.priv = .s) && s.csr.mstatus.sie)

/-- `InterruptPending()` (R634). -/
def State.interruptPending (s : State) : Option (Nat × TrapTarget) :=
  match (if s.mOn then s.firstPending false else none) with
  | some c => some (c, .m)
  | none =>
    match (if s.sOn then s.firstPending true else none) with
    | some c => some (c, .s)
    | none => none

/-- `TakeInterrupt()` (R633, R634): the trap value is 0. -/
def State.takeInterrupt (s : State) (code : Nat) (target : TrapTarget) : State := s.enterTrap true code 0#64 target

/-! ### Memory -/

/-- The exception of a failed access, by its intent (R143, R163). -/
def MemFail.exc : MemFail → Intent → Exc
  | .page, .fetch => .instructionPageFault
  | .page, .load => .loadPageFault
  | .page, .store => .storePageFault
  | .access, .fetch => .instructionAccessFault
  | .access, .load => .loadAccessFault
  | .access, .store => .storeAccessFault

/-- The TLB after an access: that of its translations, and of a failed access only what they inserted (R160, R622). -/
def State.accessTlb (s : State) (va : Word) (n : Nat) (it : Intent) : Tlb :=
  match s.accessRuns va n it with
  | (t, .ok _) => t
  | (t, .error _) => s.tlb.keepFills t

/-- The state after the translations of an access: the TLB alone may have changed (R160, R622). -/
def State.afterAccess (s : State) (va : Word) (n : Nat) (it : Intent) : State := { s with tlb := s.accessTlb va n it }

/-- `Access(va, n, intent)` (R160): the physical addresses of the bytes, or the exception. -/
def State.access (s : State) (va : Word) (n : Nat) (it : Intent) : Except Exc (List Nat) :=
  match (s.accessRuns va n it).2 with
  | .ok pas => .ok pas
  | .error f => .error (f.exc it)

/-- The write half of `MemWrite` (R160, R142): the low bytes of `v` at `pas`. -/
def State.storeAt (s : State) (pas : List Nat) (v : Word) : State := { s with mem := s.mem.writeLE pas v }

/-- `STRICT_ALIGN` asks for natural alignment of an ordinary load or store (R151). -/
def State.strictMisaligned (s : State) (va : Word) (n : Nat) : Bool :=
  s.params.strictAlign && decide (va.toNat % n ≠ 0)

/-! ### Jumps -/

/-- `CheckTarget` (R390) finds the target misaligned. -/
def State.badTarget (s : State) (t : Word) : Bool := !s.params.cEnabled && t.getLsbD 1

/-- `CheckHalt` (R697 (a)), after a jump's writes: the new pc is 0 and `x1` is 0. -/
def State.jumpHalt (s : State) : State :=
  { s with haltRequested := s.haltRequested || (decide (s.pc = 0#64) && decide (s.reg 1#5 = 0#64)) }

end Sys2Proof.Machine
end

