-- ==== Sys2Proof/Machine/Atomics.lean ====
section
/-! DEFINITION. Atomic memory operations (spec/44_atomics.md R450 to R478).  `aq` and `rl` have no effect (R183). -/

namespace Sys2Proof.Machine

open Sys2Proof

/-- `size` (R450). -/
def Granule.bytes : Granule → Nat
  | .word => 4
  | .double => 8

/-- `sext_{8·size}`: what a `.W` or `.D` form writes to `rd` (R450, R460). -/
def Granule.sext : Granule → Word → Word
  | .word, v => sextFrom 32 v
  | .double, v => v

/-- An operation at `8·size` bits (R460). -/
def Granule.apply (g : Granule) (f : {w : Nat} → BitVec w → BitVec w → BitVec w) (old src : Word) : Word :=
  match g with
  | .word => (f (old.setWidth 32) (src.setWidth 32)).setWidth 64
  | .double => f old src

/-- LR (R450). -/
def lrOp (g : Granule) (rd rs1 : Reg) (s : State) : Result :=
  if (s.reg rs1).toNat % g.bytes ≠ 0 then s.raise .loadAddressMisaligned (s.reg rs1)
  else
    match s.access (s.reg rs1) g.bytes .load with
    | .error e => (s.afterAccess (s.reg rs1) g.bytes .load).raise e (s.reg rs1)
    | .ok pas =>
      .next (({ s.afterAccess (s.reg rs1) g.bytes .load with resv := some { addr := s.reg rs1, size := g } }.setReg rd
        (g.sext (s.mem.readLE pas))).advance 4)

/-- SC (R451, R452): a failing SC makes no memory access. -/
def scOp (g : Granule) (rd rs1 rs2 : Reg) (s : State) : Result :=
  if (s.reg rs1).toNat % g.bytes ≠ 0 then s.raise .storeAddressMisaligned (s.reg rs1)
  else if s.resv = some { addr := s.reg rs1, size := g } then
    match s.access (s.reg rs1) g.bytes .store with
    | .error e => (s.afterAccess (s.reg rs1) g.bytes .store).raise e (s.reg rs1)
    | .ok pas =>
      .next (((((s.afterAccess (s.reg rs1) g.bytes .store).storeAt pas (s.reg rs2)).setReg rd 0#64).clearResv).advance 4)
  else .next (((s.setReg rd 1#64).clearResv).advance 4)

/-- A read-modify-write AMO (R460): one Store-intent access. -/
def amoOp (g : Granule) (f : {w : Nat} → BitVec w → BitVec w → BitVec w) (rd rs1 rs2 : Reg) (s : State) : Result :=
  if (s.reg rs1).toNat % g.bytes ≠ 0 then s.raise .storeAddressMisaligned (s.reg rs1)
  else
    match s.access (s.reg rs1) g.bytes .store with
    | .error e => (s.afterAccess (s.reg rs1) g.bytes .store).raise e (s.reg rs1)
    | .ok pas =>
      .next (((((s.afterAccess (s.reg rs1) g.bytes .store).storeAt pas
        (g.apply f (s.mem.readLE pas) (s.reg rs2))).setReg rd (g.sext (s.mem.readLE pas))).clearResv).advance 4)

/-- LR.W (R455) -/
def execLrW (_aq _rl : Bool) (rd rs1 : Reg) (s : State) : Result :=
  lrOp .word rd rs1 s

/-- LR.D (R456) -/
def execLrD (_aq _rl : Bool) (rd rs1 : Reg) (s : State) : Result :=
  lrOp .double rd rs1 s

/-- SC.W (R457) -/
def execScW (_aq _rl : Bool) (rd rs1 rs2 : Reg) (s : State) : Result :=
  scOp .word rd rs1 rs2 s

/-- SC.D (R458) -/
def execScD (_aq _rl : Bool) (rd rs1 rs2 : Reg) (s : State) : Result :=
  scOp .double rd rs1 rs2 s

/-- AMOSWAP.W (R461) -/
def execAmoswapW (_aq _rl : Bool) (rd rs1 rs2 : Reg) (s : State) : Result :=
  amoOp .word swapOp rd rs1 rs2 s

/-- AMOSWAP.D (R462) -/
def execAmoswapD (_aq _rl : Bool) (rd rs1 rs2 : Reg) (s : State) : Result :=
  amoOp .double swapOp rd rs1 rs2 s

/-- AMOADD.W (R463) -/
def execAmoaddW (_aq _rl : Bool) (rd rs1 rs2 : Reg) (s : State) : Result :=
  amoOp .word addOp rd rs1 rs2 s

/-- AMOADD.D (R464) -/
def execAmoaddD (_aq _rl : Bool) (rd rs1 rs2 : Reg) (s : State) : Result :=
  amoOp .double addOp rd rs1 rs2 s

/-- AMOXOR.W (R465) -/
def execAmoxorW (_aq _rl : Bool) (rd rs1 rs2 : Reg) (s : State) : Result :=
  amoOp .word xorOp rd rs1 rs2 s

/-- AMOXOR.D (R466) -/
def execAmoxorD (_aq _rl : Bool) (rd rs1 rs2 : Reg) (s : State) : Result :=
  amoOp .double xorOp rd rs1 rs2 s

/-- AMOAND.W (R467) -/
def execAmoandW (_aq _rl : Bool) (rd rs1 rs2 : Reg) (s : State) : Result :=
  amoOp .word andOp rd rs1 rs2 s

/-- AMOAND.D (R468) -/
def execAmoandD (_aq _rl : Bool) (rd rs1 rs2 : Reg) (s : State) : Result :=
  amoOp .double andOp rd rs1 rs2 s

/-- AMOOR.W (R469) -/
def execAmoorW (_aq _rl : Bool) (rd rs1 rs2 : Reg) (s : State) : Result :=
  amoOp .word orOp rd rs1 rs2 s

/-- AMOOR.D (R470) -/
def execAmoorD (_aq _rl : Bool) (rd rs1 rs2 : Reg) (s : State) : Result :=
  amoOp .double orOp rd rs1 rs2 s

/-- AMOMIN.W (R471) -/
def execAmominW (_aq _rl : Bool) (rd rs1 rs2 : Reg) (s : State) : Result :=
  amoOp .word minOp rd rs1 rs2 s

/-- AMOMIN.D (R472) -/
def execAmominD (_aq _rl : Bool) (rd rs1 rs2 : Reg) (s : State) : Result :=
  amoOp .double minOp rd rs1 rs2 s

/-- AMOMAX.W (R473) -/
def execAmomaxW (_aq _rl : Bool) (rd rs1 rs2 : Reg) (s : State) : Result :=
  amoOp .word maxOp rd rs1 rs2 s

/-- AMOMAX.D (R474) -/
def execAmomaxD (_aq _rl : Bool) (rd rs1 rs2 : Reg) (s : State) : Result :=
  amoOp .double maxOp rd rs1 rs2 s

/-- AMOMINU.W (R475) -/
def execAmominuW (_aq _rl : Bool) (rd rs1 rs2 : Reg) (s : State) : Result :=
  amoOp .word minuOp rd rs1 rs2 s

/-- AMOMINU.D (R476) -/
def execAmominuD (_aq _rl : Bool) (rd rs1 rs2 : Reg) (s : State) : Result :=
  amoOp .double minuOp rd rs1 rs2 s

/-- AMOMAXU.W (R477) -/
def execAmomaxuW (_aq _rl : Bool) (rd rs1 rs2 : Reg) (s : State) : Result :=
  amoOp .word maxuOp rd rs1 rs2 s

/-- AMOMAXU.D (R478) -/
def execAmomaxuD (_aq _rl : Bool) (rd rs1 rs2 : Reg) (s : State) : Result :=
  amoOp .double maxuOp rd rs1 rs2 s

end Sys2Proof.Machine
end

