-- ==== Sys2Proof/Machine/Control.lean ====
section
/-! DEFINITION. Control transfer (spec/42_control.md R390 to R398). -/

namespace Sys2Proof.Machine

open Sys2Proof

/-- The common part of JAL and JALR: `CheckTarget(t)`, the link, the jump (R390 to R392), then the halt check (R697). -/
def jumpTo (ilen : Nat) (rd : Reg) (t : Word) (s : State) : Result :=
  if s.badTarget t then s.raise .instructionAddressMisaligned t
  else .next ((s.setReg rd (s.npc ilen)).setPc t).jumpHalt

/-- `pc + off`, at XLEN bits. -/
def State.pcRel (s : State) (off : Word) : Word := truncX s.params.xlen (s.pc + off)

/-- The JAL form (R391). -/
def jumpRel (ilen : Nat) (rd : Reg) (off : Word) (s : State) : Result := jumpTo ilen rd (s.pcRel off) s

/-- The JALR form (R392): bit 0 of the target is cleared. -/
def jumpReg (ilen : Nat) (rd rs1 : Reg) (off : Word) (s : State) : Result :=
  jumpTo ilen rd (s.addr rs1 off &&& ~~~1#64) s

/-- A conditional branch (common to R393 to R398): the target is checked only when the branch is taken. -/
def branchIf (ilen : Nat) (taken : Bool) (off : Word) (s : State) : Result :=
  if taken then
    if s.badTarget (s.pcRel off) then s.raise .instructionAddressMisaligned (s.pcRel off)
    else .next (s.setPc (s.pcRel off))
  else .next (s.advance ilen)

/-- A comparison of two registers at XLEN bits. -/
def State.compare (s : State) (f : {w : Nat} → BitVec w → BitVec w → Bool) (rs1 rs2 : Reg) : Bool :=
  cmpXlen s.params.xlen f (s.reg rs1) (s.reg rs2)

/-- JAL (R391) -/
def execJal (rd : Reg) (imm : BitVec 20) (s : State) : Result :=
  jumpRel 4 rd (immJ imm) s

/-- JALR (R392) -/
def execJalr (rd rs1 : Reg) (imm : BitVec 12) (s : State) : Result :=
  jumpReg 4 rd rs1 (imm12 imm) s

/-- BEQ (R393) -/
def execBeq (rs1 rs2 : Reg) (imm : BitVec 12) (s : State) : Result :=
  branchIf 4 (s.compare eqBits rs1 rs2) (immB imm) s

/-- BNE (R394) -/
def execBne (rs1 rs2 : Reg) (imm : BitVec 12) (s : State) : Result :=
  branchIf 4 (!s.compare eqBits rs1 rs2) (immB imm) s

/-- BLT (R395) -/
def execBlt (rs1 rs2 : Reg) (imm : BitVec 12) (s : State) : Result :=
  branchIf 4 (s.compare ltSigned rs1 rs2) (immB imm) s

/-- BGE (R396) -/
def execBge (rs1 rs2 : Reg) (imm : BitVec 12) (s : State) : Result :=
  branchIf 4 (!s.compare ltSigned rs1 rs2) (immB imm) s

/-- BLTU (R397) -/
def execBltu (rs1 rs2 : Reg) (imm : BitVec 12) (s : State) : Result :=
  branchIf 4 (s.compare ltUnsigned rs1 rs2) (immB imm) s

/-- BGEU (R398) -/
def execBgeu (rs1 rs2 : Reg) (imm : BitVec 12) (s : State) : Result :=
  branchIf 4 (!s.compare ltUnsigned rs1 rs2) (immB imm) s

end Sys2Proof.Machine
end

