-- ==== Sys2Proof/Machine/LoadStore.lean ====
section
/-! DEFINITION. Loads and stores (spec/43_loadstore.md R420 to R432). -/

namespace Sys2Proof.Machine

open Sys2Proof

/-- A load of `n` bytes (R420).  The access is made, and can raise, also when `rd` is `x0`. -/
def loadOp (ilen n : Nat) (ext : Word → Word) (rd rs1 : Reg) (off : Word) (s : State) : Result :=
  if s.strictMisaligned (s.addr rs1 off) n then s.raise .loadAddressMisaligned (s.addr rs1 off)
  else
    match s.access (s.addr rs1 off) n .load with
    | .error e => (s.afterAccess (s.addr rs1 off) n .load).raise e (s.addr rs1 off)
    | .ok pas =>
      .next (((s.afterAccess (s.addr rs1 off) n .load).setReg rd (ext (s.mem.readLE pas))).advance ilen)

/-- A store of `n` bytes (R421).  It clears the reservation (R453). -/
def storeOp (ilen n : Nat) (rs1 rs2 : Reg) (off : Word) (s : State) : Result :=
  if s.strictMisaligned (s.addr rs1 off) n then s.raise .storeAddressMisaligned (s.addr rs1 off)
  else
    match s.access (s.addr rs1 off) n .store with
    | .error e => (s.afterAccess (s.addr rs1 off) n .store).raise e (s.addr rs1 off)
    | .ok pas =>
      .next ((((s.afterAccess (s.addr rs1 off) n .store).storeAt pas (s.reg rs2)).clearResv).advance ilen)

/-- LB (R422) -/
def execLb (rd rs1 : Reg) (imm : BitVec 12) (s : State) : Result :=
  loadOp 4 1 (sextFrom 8) rd rs1 (imm12 imm) s

/-- LH (R423) -/
def execLh (rd rs1 : Reg) (imm : BitVec 12) (s : State) : Result :=
  loadOp 4 2 (sextFrom 16) rd rs1 (imm12 imm) s

/-- LW (R424) -/
def execLw (rd rs1 : Reg) (imm : BitVec 12) (s : State) : Result :=
  loadOp 4 4 (sextFrom 32) rd rs1 (imm12 imm) s

/-- LD (R425) -/
def execLd (rd rs1 : Reg) (imm : BitVec 12) (s : State) : Result :=
  loadOp 4 8 id rd rs1 (imm12 imm) s

/-- LBU (R426) -/
def execLbu (rd rs1 : Reg) (imm : BitVec 12) (s : State) : Result :=
  loadOp 4 1 (zextFrom 8) rd rs1 (imm12 imm) s

/-- LHU (R427) -/
def execLhu (rd rs1 : Reg) (imm : BitVec 12) (s : State) : Result :=
  loadOp 4 2 (zextFrom 16) rd rs1 (imm12 imm) s

/-- LWU (R428) -/
def execLwu (rd rs1 : Reg) (imm : BitVec 12) (s : State) : Result :=
  loadOp 4 4 (zextFrom 32) rd rs1 (imm12 imm) s

/-- SB (R429) -/
def execSb (rs1 rs2 : Reg) (imm : BitVec 12) (s : State) : Result :=
  storeOp 4 1 rs1 rs2 (imm12 imm) s

/-- SH (R430) -/
def execSh (rs1 rs2 : Reg) (imm : BitVec 12) (s : State) : Result :=
  storeOp 4 2 rs1 rs2 (imm12 imm) s

/-- SW (R431) -/
def execSw (rs1 rs2 : Reg) (imm : BitVec 12) (s : State) : Result :=
  storeOp 4 4 rs1 rs2 (imm12 imm) s

/-- SD (R432) -/
def execSd (rs1 rs2 : Reg) (imm : BitVec 12) (s : State) : Result :=
  storeOp 4 8 rs1 rs2 (imm12 imm) s

end Sys2Proof.Machine
end

