-- ==== Sys2Proof/Machine/Integer.lean ====
section
/-! DEFINITION. The integer computational instructions (spec/40_integer.md R300 to R328). -/

namespace Sys2Proof.Machine

open Sys2Proof

/-- `x[rd] <- v`, then `pc <- npc`: how every computational instruction ends (R13). -/
def writeNext (ilen : Nat) (rd : Reg) (v : Word) (s : State) : Result := .next ((s.setReg rd v).advance ilen)

/-- `x[rd] <- f(x[rs1], imm)` at XLEN bits. -/
def immOp (ilen : Nat) (f : {w : Nat} → BitVec w → BitVec w → BitVec w) (rd rs1 : Reg) (imm : Word) (s : State) : Result :=
  writeNext ilen rd (atXlen s.params.xlen f (s.reg rs1) imm) s

/-- `x[rd] <- f(x[rs1], x[rs2])` at XLEN bits. -/
def regOp (ilen : Nat) (f : {w : Nat} → BitVec w → BitVec w → BitVec w) (rd rs1 rs2 : Reg) (s : State) : Result :=
  writeNext ilen rd (atXlen s.params.xlen f (s.reg rs1) (s.reg rs2)) s

/-- `x[rd] <- sext_32(f(x[rs1][31:0], imm))`: a `*W` form. -/
def immOpW (ilen : Nat) (f : {w : Nat} → BitVec w → BitVec w → BitVec w) (rd rs1 : Reg) (imm : Word) (s : State) : Result :=
  writeNext ilen rd (atWord f (s.reg rs1) imm) s

/-- `x[rd] <- sext_32(f(x[rs1][31:0], x[rs2][31:0]))`: a `*W` form. -/
def regOpW (ilen : Nat) (f : {w : Nat} → BitVec w → BitVec w → BitVec w) (rd rs1 rs2 : Reg) (s : State) : Result :=
  writeNext ilen rd (atWord f (s.reg rs1) (s.reg rs2)) s

/-- LUI (R300) -/
def execLui (rd : Reg) (imm : BitVec 20) (s : State) : Result :=
  writeNext 4 rd (immU imm) s

/-- AUIPC (R301) -/
def execAuipc (rd : Reg) (imm : BitVec 20) (s : State) : Result :=
  writeNext 4 rd (s.pc + immU imm) s

/-- ADDI (R302) -/
def execAddi (rd rs1 : Reg) (imm : BitVec 12) (s : State) : Result :=
  immOp 4 addOp rd rs1 (imm12 imm) s

/-- SLTI (R303) -/
def execSlti (rd rs1 : Reg) (imm : BitVec 12) (s : State) : Result :=
  immOp 4 sltOp rd rs1 (imm12 imm) s

/-- SLTIU (R304) -/
def execSltiu (rd rs1 : Reg) (imm : BitVec 12) (s : State) : Result :=
  immOp 4 sltuOp rd rs1 (imm12 imm) s

/-- XORI (R305) -/
def execXori (rd rs1 : Reg) (imm : BitVec 12) (s : State) : Result :=
  immOp 4 xorOp rd rs1 (imm12 imm) s

/-- ORI (R306) -/
def execOri (rd rs1 : Reg) (imm : BitVec 12) (s : State) : Result :=
  immOp 4 orOp rd rs1 (imm12 imm) s

/-- ANDI (R307) -/
def execAndi (rd rs1 : Reg) (imm : BitVec 12) (s : State) : Result :=
  immOp 4 andOp rd rs1 (imm12 imm) s

/-- SLLI (R308) -/
def execSlli (rd rs1 : Reg) (shamt : BitVec 6) (s : State) : Result :=
  immOp 4 sllOp rd rs1 (shamt.setWidth 64) s

/-- SRLI (R309) -/
def execSrli (rd rs1 : Reg) (shamt : BitVec 6) (s : State) : Result :=
  immOp 4 srlOp rd rs1 (shamt.setWidth 64) s

/-- SRAI (R310) -/
def execSrai (rd rs1 : Reg) (shamt : BitVec 6) (s : State) : Result :=
  immOp 4 sraOp rd rs1 (shamt.setWidth 64) s

/-- ADD (R311) -/
def execAdd (rd rs1 rs2 : Reg) (s : State) : Result :=
  regOp 4 addOp rd rs1 rs2 s

/-- SUB (R312) -/
def execSub (rd rs1 rs2 : Reg) (s : State) : Result :=
  regOp 4 subOp rd rs1 rs2 s

/-- SLL (R313) -/
def execSll (rd rs1 rs2 : Reg) (s : State) : Result :=
  regOp 4 sllOp rd rs1 rs2 s

/-- SLT (R314) -/
def execSlt (rd rs1 rs2 : Reg) (s : State) : Result :=
  regOp 4 sltOp rd rs1 rs2 s

/-- SLTU (R315) -/
def execSltu (rd rs1 rs2 : Reg) (s : State) : Result :=
  regOp 4 sltuOp rd rs1 rs2 s

/-- XOR (R316) -/
def execXor (rd rs1 rs2 : Reg) (s : State) : Result :=
  regOp 4 xorOp rd rs1 rs2 s

/-- SRL (R317) -/
def execSrl (rd rs1 rs2 : Reg) (s : State) : Result :=
  regOp 4 srlOp rd rs1 rs2 s

/-- SRA (R318) -/
def execSra (rd rs1 rs2 : Reg) (s : State) : Result :=
  regOp 4 sraOp rd rs1 rs2 s

/-- OR (R319) -/
def execOr (rd rs1 rs2 : Reg) (s : State) : Result :=
  regOp 4 orOp rd rs1 rs2 s

/-- AND (R320) -/
def execAnd (rd rs1 rs2 : Reg) (s : State) : Result :=
  regOp 4 andOp rd rs1 rs2 s

/-- ADDIW (R321) -/
def execAddiw (rd rs1 : Reg) (imm : BitVec 12) (s : State) : Result :=
  immOpW 4 addOp rd rs1 (imm12 imm) s

/-- SLLIW (R322) -/
def execSlliw (rd rs1 : Reg) (shamt : BitVec 5) (s : State) : Result :=
  immOpW 4 sllOp rd rs1 (shamt.setWidth 64) s

/-- SRLIW (R323) -/
def execSrliw (rd rs1 : Reg) (shamt : BitVec 5) (s : State) : Result :=
  immOpW 4 srlOp rd rs1 (shamt.setWidth 64) s

/-- SRAIW (R324) -/
def execSraiw (rd rs1 : Reg) (shamt : BitVec 5) (s : State) : Result :=
  immOpW 4 sraOp rd rs1 (shamt.setWidth 64) s

/-- ADDW (R325) -/
def execAddw (rd rs1 rs2 : Reg) (s : State) : Result :=
  regOpW 4 addOp rd rs1 rs2 s

/-- SUBW (R326) -/
def execSubw (rd rs1 rs2 : Reg) (s : State) : Result :=
  regOpW 4 subOp rd rs1 rs2 s

/-- SLLW (R327) -/
def execSllw (rd rs1 rs2 : Reg) (s : State) : Result :=
  regOpW 4 sllOp rd rs1 rs2 s

/-- SRLW (R327) -/
def execSrlw (rd rs1 rs2 : Reg) (s : State) : Result :=
  regOpW 4 srlOp rd rs1 rs2 s

/-- SRAW (R328) -/
def execSraw (rd rs1 rs2 : Reg) (s : State) : Result :=
  regOpW 4 sraOp rd rs1 rs2 s

end Sys2Proof.Machine
end

