-- ==== Sys2Proof/Machine/MulDiv.lean ====
section
/-! DEFINITION. Multiply and divide (spec/41_muldiv.md R360 to R373); the arithmetic is in Operands.lean. -/

namespace Sys2Proof.Machine

open Sys2Proof

/-- MUL (R361) -/
def execMul (rd rs1 rs2 : Reg) (s : State) : Result :=
  regOp 4 mulOp rd rs1 rs2 s

/-- MULH (R362) -/
def execMulh (rd rs1 rs2 : Reg) (s : State) : Result :=
  regOp 4 mulhOp rd rs1 rs2 s

/-- MULHSU (R363) -/
def execMulhsu (rd rs1 rs2 : Reg) (s : State) : Result :=
  regOp 4 mulhsuOp rd rs1 rs2 s

/-- MULHU (R364) -/
def execMulhu (rd rs1 rs2 : Reg) (s : State) : Result :=
  regOp 4 mulhuOp rd rs1 rs2 s

/-- DIV (R365) -/
def execDiv (rd rs1 rs2 : Reg) (s : State) : Result :=
  regOp 4 divOp rd rs1 rs2 s

/-- DIVU (R366) -/
def execDivu (rd rs1 rs2 : Reg) (s : State) : Result :=
  regOp 4 divuOp rd rs1 rs2 s

/-- REM (R367) -/
def execRem (rd rs1 rs2 : Reg) (s : State) : Result :=
  regOp 4 remOp rd rs1 rs2 s

/-- REMU (R368) -/
def execRemu (rd rs1 rs2 : Reg) (s : State) : Result :=
  regOp 4 remuOp rd rs1 rs2 s

/-- MULW (R369) -/
def execMulw (rd rs1 rs2 : Reg) (s : State) : Result :=
  regOpW 4 mulOp rd rs1 rs2 s

/-- DIVW (R370) -/
def execDivw (rd rs1 rs2 : Reg) (s : State) : Result :=
  regOpW 4 divOp rd rs1 rs2 s

/-- DIVUW (R371) -/
def execDivuw (rd rs1 rs2 : Reg) (s : State) : Result :=
  regOpW 4 divuOp rd rs1 rs2 s

/-- REMW (R372) -/
def execRemw (rd rs1 rs2 : Reg) (s : State) : Result :=
  regOpW 4 remOp rd rs1 rs2 s

/-- REMUW (R373) -/
def execRemuw (rd rs1 rs2 : Reg) (s : State) : Result :=
  regOpW 4 remuOp rd rs1 rs2 s

end Sys2Proof.Machine
end

