-- ==== Sys2Proof/Machine/System.lean ====
section
/-! DEFINITION. Fences, environment calls, trap return, WFI and SFENCE.VMA (spec/46_system.md R510 to R519). -/

namespace Sys2Proof.Machine

open Sys2Proof

/-- An instruction that raises IllegalInstruction below mode `least`, with its own bits (R514, R516, R517, R519). -/
def privileged (least : Priv) (i : Instr) (effect : Result) (s : State) : Result :=
  if Priv.rank s.priv < Priv.rank least then s.raise .illegalInstruction (encode i).bits else effect

/-- The environment call of a mode (R512). -/
def ecallExc : Priv → Exc
  | .u => .environmentCallFromU
  | .s => .environmentCallFromS
  | .m => .environmentCallFromM

/-- ECALL, from any encoding (R512). -/
def ecallOp (s : State) : Result := s.raise (ecallExc s.priv) 0#64

/-- EBREAK, from any encoding (R513). -/
def ebreakOp (s : State) : Result := s.raise .breakpoint s.pc

/-- `v[ASIDLEN-1:0]` (R9, R519). -/
def asidOf (x : Xlen) (v : Word) : BitVec 16 :=
  match x with
  | .rv32 => (v.extractLsb' 0 9).setWidth 16
  | .rv64 => v.extractLsb' 0 16

/-- The entries an SFENCE.VMA invalidates (R519).  The conditions `rs1 = 0` and `rs2 = 0` are on the register index. -/
def sfenceSelects (s : State) (rs1 rs2 : Reg) (e : TlbEntry) : Bool :=
  (decide (rs1 = 0#5) || sameVpn s.params.xlen e.level e.vpn (vpnOf s.params.xlen (s.reg rs1)))
  && (decide (rs2 = 0#5) || (!e.g && e.asid == asidOf s.params.xlen (s.reg rs2)))

/-- FENCE (R510) -/
def execFence (_fm _pred _succ : BitVec 4) (_rs1 _rd : Reg) (s : State) : Result :=
  .next (s.advance 4)

/-- FENCE.I (R511) -/
def execFenceI (_imm : BitVec 12) (_rs1 _rd : Reg) (s : State) : Result :=
  .next (s.advance 4)

/-- ECALL (R512) -/
def execEcall (s : State) : Result :=
  ecallOp s

/-- EBREAK (R513) -/
def execEbreak (s : State) : Result :=
  ebreakOp s

/-- SRET (R517) -/
def execSret (s : State) : Result :=
  privileged .s .sret (.next s.returnS) s

/-- MRET (R516) -/
def execMret (s : State) : Result :=
  privileged .m .mret (.next s.returnM) s

/-- WFI (R514) -/
def execWfi (s : State) : Result :=
  privileged .s .wfi (.next (s.advance 4)) s

/-- SFENCE.VMA (R519) -/
def execSfenceVma (rs1 rs2 : Reg) (s : State) : Result :=
  privileged .s (.sfenceVma rs1 rs2)
    (.next ({ s with tlb := s.tlb.invalidate (sfenceSelects s rs1 rs2) }.advance 4)) s

end Sys2Proof.Machine
end

