-- ==== Sys2Proof/Machine/Compressed.lean ====
section
/-! DEFINITION. The compressed instructions (spec/47_compressed.md R540 to R586): each is its base expansion's shared
operation with `ilen = 2` and the operands of R241 and R42 (R540). -/

namespace Sys2Proof.Machine

open Sys2Proof

/-- A compressed floating-point form raises IllegalInstruction with its parcel, before any access (R585). -/
def noFpu (i : Instr) (s : State) : Result := s.raise .illegalInstruction (encode i).bits

/-- C.ADDI4SPN (R541) -/
def execCAddi4spn (rd : CReg) (uimm : BitVec 8) (s : State) : Result :=
  immOp 2 addOp (CReg.reg rd) 2#5 (uimmC4spn uimm) s

/-- C.FLD (R542) -/
def execCFld (rd rs1 : CReg) (uimm : BitVec 5) (s : State) : Result :=
  noFpu (.cFld rd rs1 uimm) s

/-- C.LW (R543) -/
def execCLw (rd rs1 : CReg) (uimm : BitVec 5) (s : State) : Result :=
  loadOp 2 4 (sextFrom 32) (CReg.reg rd) (CReg.reg rs1) (uimmCW uimm) s

/-- C.FLW (R544) -/
def execCFlw (rd rs1 : CReg) (uimm : BitVec 5) (s : State) : Result :=
  noFpu (.cFlw rd rs1 uimm) s

/-- C.LD (R545) -/
def execCLd (rd rs1 : CReg) (uimm : BitVec 5) (s : State) : Result :=
  loadOp 2 8 id (CReg.reg rd) (CReg.reg rs1) (uimmCD uimm) s

/-- C.FSD (R546) -/
def execCFsd (rs1 rs2 : CReg) (uimm : BitVec 5) (s : State) : Result :=
  noFpu (.cFsd rs1 rs2 uimm) s

/-- C.SW (R547) -/
def execCSw (rs1 rs2 : CReg) (uimm : BitVec 5) (s : State) : Result :=
  storeOp 2 4 (CReg.reg rs1) (CReg.reg rs2) (uimmCW uimm) s

/-- C.FSW (R548) -/
def execCFsw (rs1 rs2 : CReg) (uimm : BitVec 5) (s : State) : Result :=
  noFpu (.cFsw rs1 rs2 uimm) s

/-- C.SD (R549) -/
def execCSd (rs1 rs2 : CReg) (uimm : BitVec 5) (s : State) : Result :=
  storeOp 2 8 (CReg.reg rs1) (CReg.reg rs2) (uimmCD uimm) s

/-- C.NOP (R550) -/
def execCNop (_imm : BitVec 6) (s : State) : Result :=
  .next (s.advance 2)

/-- C.ADDI (R551) -/
def execCAddi (rd : Reg) (imm : BitVec 6) (s : State) : Result :=
  immOp 2 addOp rd rd (imm6 imm) s

/-- C.JAL (R552) -/
def execCJal (imm : BitVec 11) (s : State) : Result :=
  jumpRel 2 1#5 (immCJ imm) s

/-- C.ADDIW (R553) -/
def execCAddiw (rd : Reg) (imm : BitVec 6) (s : State) : Result :=
  immOpW 2 addOp rd rd (imm6 imm) s

/-- C.LI (R554) -/
def execCLi (rd : Reg) (imm : BitVec 6) (s : State) : Result :=
  writeNext 2 rd (imm6 imm) s

/-- C.ADDI16SP (R555) -/
def execCAddi16sp (imm : BitVec 6) (s : State) : Result :=
  immOp 2 addOp 2#5 2#5 (immC16sp imm) s

/-- C.LUI (R556) -/
def execCLui (rd : Reg) (imm : BitVec 6) (s : State) : Result :=
  writeNext 2 rd (immCLui imm) s

/-- C.SRLI (R557) -/
def execCSrli (rd : CReg) (shamt : BitVec 6) (s : State) : Result :=
  immOp 2 srlOp (CReg.reg rd) (CReg.reg rd) (shamt.setWidth 64) s

/-- C.SRAI (R558) -/
def execCSrai (rd : CReg) (shamt : BitVec 6) (s : State) : Result :=
  immOp 2 sraOp (CReg.reg rd) (CReg.reg rd) (shamt.setWidth 64) s

/-- C.ANDI (R559) -/
def execCAndi (rd : CReg) (imm : BitVec 6) (s : State) : Result :=
  immOp 2 andOp (CReg.reg rd) (CReg.reg rd) (imm6 imm) s

/-- C.SUB (R560) -/
def execCSub (rd rs2 : CReg) (s : State) : Result :=
  regOp 2 subOp (CReg.reg rd) (CReg.reg rd) (CReg.reg rs2) s

/-- C.XOR (R561) -/
def execCXor (rd rs2 : CReg) (s : State) : Result :=
  regOp 2 xorOp (CReg.reg rd) (CReg.reg rd) (CReg.reg rs2) s

/-- C.OR (R562) -/
def execCOr (rd rs2 : CReg) (s : State) : Result :=
  regOp 2 orOp (CReg.reg rd) (CReg.reg rd) (CReg.reg rs2) s

/-- C.AND (R563) -/
def execCAnd (rd rs2 : CReg) (s : State) : Result :=
  regOp 2 andOp (CReg.reg rd) (CReg.reg rd) (CReg.reg rs2) s

/-- C.SUBW (R564) -/
def execCSubw (rd rs2 : CReg) (s : State) : Result :=
  regOpW 2 subOp (CReg.reg rd) (CReg.reg rd) (CReg.reg rs2) s

/-- C.ADDW (R565) -/
def execCAddw (rd rs2 : CReg) (s : State) : Result :=
  regOpW 2 addOp (CReg.reg rd) (CReg.reg rd) (CReg.reg rs2) s

/-- C.J (R566) -/
def execCJ (imm : BitVec 11) (s : State) : Result :=
  jumpRel 2 0#5 (immCJ imm) s

/-- C.BEQZ (R567) -/
def execCBeqz (rs1 : CReg) (imm : BitVec 8) (s : State) : Result :=
  branchIf 2 (s.compare eqBits (CReg.reg rs1) 0#5) (immCB imm) s

/-- C.BNEZ (R568) -/
def execCBnez (rs1 : CReg) (imm : BitVec 8) (s : State) : Result :=
  branchIf 2 (!s.compare eqBits (CReg.reg rs1) 0#5) (immCB imm) s

/-- C.SLLI (R570) -/
def execCSlli (rd : Reg) (shamt : BitVec 6) (s : State) : Result :=
  immOp 2 sllOp rd rd (shamt.setWidth 64) s

/-- C.FLDSP (R571) -/
def execCFldsp (rd : Reg) (uimm : BitVec 6) (s : State) : Result :=
  noFpu (.cFldsp rd uimm) s

/-- C.LWSP (R572) -/
def execCLwsp (rd : Reg) (uimm : BitVec 6) (s : State) : Result :=
  loadOp 2 4 (sextFrom 32) rd 2#5 (uimmCWsp uimm) s

/-- C.FLWSP (R573) -/
def execCFlwsp (rd : Reg) (uimm : BitVec 6) (s : State) : Result :=
  noFpu (.cFlwsp rd uimm) s

/-- C.LDSP (R574) -/
def execCLdsp (rd : Reg) (uimm : BitVec 6) (s : State) : Result :=
  loadOp 2 8 id rd 2#5 (uimmCDsp uimm) s

/-- C.JR (R575) -/
def execCJr (rs1 : Reg) (s : State) : Result :=
  jumpReg 2 0#5 rs1 0#64 s

/-- C.MV (R576) -/
def execCMv (rd rs2 : Reg) (s : State) : Result :=
  writeNext 2 rd (s.reg rs2) s

/-- C.EBREAK (R577) -/
def execCEbreak (s : State) : Result :=
  ebreakOp s

/-- C.JALR (R578) -/
def execCJalr (rs1 : Reg) (s : State) : Result :=
  jumpReg 2 1#5 rs1 0#64 s

/-- C.ADD (R579) -/
def execCAdd (rd rs2 : Reg) (s : State) : Result :=
  regOp 2 addOp rd rd rs2 s

/-- C.FSDSP (R580) -/
def execCFsdsp (rs2 : Reg) (uimm : BitVec 6) (s : State) : Result :=
  noFpu (.cFsdsp rs2 uimm) s

/-- C.SWSP (R581) -/
def execCSwsp (rs2 : Reg) (uimm : BitVec 6) (s : State) : Result :=
  storeOp 2 4 2#5 rs2 (uimmCWsp uimm) s

/-- C.FSWSP (R582) -/
def execCFswsp (rs2 : Reg) (uimm : BitVec 6) (s : State) : Result :=
  noFpu (.cFswsp rs2 uimm) s

/-- C.SDSP (R583) -/
def execCSdsp (rs2 : Reg) (uimm : BitVec 6) (s : State) : Result :=
  storeOp 2 8 2#5 rs2 (uimmCDsp uimm) s

end Sys2Proof.Machine
end

