-- ==== Sys2Proof/Machine/CsrInstr.lean ====
section
/-! DEFINITION. The CSR instructions (spec/45_csr.md R490 to R498). -/

namespace Sys2Proof.Machine

open Sys2Proof

/-- The common form (R491): the check, the read of the view, the write of `new(old)` if the instruction writes, `rd`.
`i` is the instruction itself, whose bits are the trap value of IllegalInstruction (R490). -/
def csrOp (i : Instr) (rd : Reg) (csr : CsrIndex) (writes : Bool) (new : Word → Word) (s : State) : Result :=
  match s.csrCheck csr writes with
  | none => s.raise .illegalInstruction (encode i).bits
  | some c =>
    .next (((if writes then s.writeCsr c (new (s.readCsr c)) else s).setReg rd (s.readCsr c)).advance 4)

/-- CSRRW (R492) -/
def execCsrrw (rd rs1 : Reg) (csr : CsrIndex) (s : State) : Result :=
  csrOp (.csrrw rd rs1 csr) rd csr true (fun _ => s.reg rs1) s

/-- CSRRS (R493) -/
def execCsrrs (rd rs1 : Reg) (csr : CsrIndex) (s : State) : Result :=
  csrOp (.csrrs rd rs1 csr) rd csr (decide (rs1 ≠ 0#5)) (fun old => old ||| s.reg rs1) s

/-- CSRRC (R494) -/
def execCsrrc (rd rs1 : Reg) (csr : CsrIndex) (s : State) : Result :=
  csrOp (.csrrc rd rs1 csr) rd csr (decide (rs1 ≠ 0#5)) (fun old => old &&& ~~~s.reg rs1) s

/-- CSRRWI (R495) -/
def execCsrrwi (rd : Reg) (uimm : BitVec 5) (csr : CsrIndex) (s : State) : Result :=
  csrOp (.csrrwi rd uimm csr) rd csr true (fun _ => uimm5 uimm) s

/-- CSRRSI (R496) -/
def execCsrrsi (rd : Reg) (uimm : BitVec 5) (csr : CsrIndex) (s : State) : Result :=
  csrOp (.csrrsi rd uimm csr) rd csr (decide (uimm ≠ 0#5)) (fun old => old ||| uimm5 uimm) s

/-- CSRRCI (R497) -/
def execCsrrci (rd : Reg) (uimm : BitVec 5) (csr : CsrIndex) (s : State) : Result :=
  csrOp (.csrrci rd uimm csr) rd csr (decide (uimm ≠ 0#5)) (fun old => old &&& ~~~uimm5 uimm) s

end Sys2Proof.Machine
end

