-- ==== Sys2Proof/Machine/Fetch.lean ====
section
/-! DEFINITION. What one step does around the execution of an instruction (spec/30_encoding.md R220): the halt check, the
interrupt check, the fetch of one or two parcels, the decode, and what a raise takes back (60_exceptions.md R622). -/

namespace Sys2Proof.Machine

open Sys2Proof

/-- The start of a step (R220, R634, R635): a halted hart takes no step (the same state; DESIGN CHOICE, log entry 7), and
an interrupt is taken before the fetch.  `none` says that the step goes on to the fetch. -/
def State.boundary (s : State) : Option State :=
  if s.haltRequested then some s
  else
    match s.interruptPending with
    | some (code, target) => some (s.takeInterrupt code target)
    | none => none

/-- The address of the second parcel (R220). -/
def State.pc2 (s : State) : Word := s.npc 2

/-- The value of a parcel whose bytes are at `pas` (R150). -/
def State.parcelAt (s : State) (pas : List Nat) : BitVec 16 := (s.mem.readLE pas).setWidth 16

/-- The fetch (R220): the state after its translations, and the instruction word or the exception with its trap value.
The second parcel is fetched only when the low two bits of the first are 11 (R221). -/
def State.fetch (s : State) : State × Except (Exc × Word) InstWord :=
  match s.access s.pc 2 .fetch with
  | .error e => (s.afterAccess s.pc 2 .fetch, .error (e, s.pc))
  | .ok pas0 =>
    if (s.parcelAt pas0).extractLsb' 0 2 = 3#2 then
      let s1 := s.afterAccess s.pc 2 .fetch
      match s1.access s.pc2 2 .fetch with
      | .error e => (s1.afterAccess s.pc2 2 .fetch, .error (e, s.pc2))
      | .ok pas1 => (s1.afterAccess s.pc2 2 .fetch, .ok (.full (s.parcelAt pas1 ++ s.parcelAt pas0)))
    else (s.afterAccess s.pc 2 .fetch, .ok (.half (s.parcelAt pas0)))

/-- The fetch and the decode: an Illegal decode is IllegalInstruction with the instruction bits (R222, R232, R247). -/
def State.fetchInstr (s : State) : State × Except (Exc × Word) Instr :=
  match s.fetch with
  | (s1, .error e) => (s1, .error e)
  | (s1, .ok iw) =>
    match decodeInst s.params.xlen s.params.cEnabled iw with
    | .ok i => (s1, .ok i)
    | .error _ => (s1, .error (.illegalInstruction, iw.bits))

/-- The state an instruction is executed in: nothing has raised yet. -/
def State.clearTrapped (s : State) : State := { s with trapped := false }

/-- The state `t` that an instruction which raised leaves, where `s` is the state before its fetch: of what it did to the
TLB, only its insertions survive (R622). -/
def State.undoHits (s t : State) : State := { t with tlb := s.tlb.keepFills t.tlb }

/-- The end of an instruction whose step began in `s`: a raise undoes the stamps its TLB hits renewed, those of its fetch
among them (R622). -/
def State.settle (s : State) : Result → Result
  | .next t => .next (if t.trapped then s.undoHits t else t)
  | .fault f => .fault f
  | .refused r => .refused r

/-- The physical addresses of the four bytes the next fetch can read, as far as they exist. -/
def State.fetchAddrs (s : State) : List Nat :=
  match s.access s.pc 2 .fetch with
  | .error _ => []
  | .ok pas0 =>
    match (s.afterAccess s.pc 2 .fetch).access s.pc2 2 .fetch with
    | .error _ => pas0
    | .ok pas1 => pas0 ++ pas1

/-- Places the word `w` of `nbits` bits, zero above them, where the next fetch reads, and lets the hart run. -/
def State.placeWord (s : State) (nbits w : Nat) : State :=
  { s with mem := s.mem.writeLE s.fetchAddrs (BitVec.ofNat 64 (w % 2 ^ nbits)), haltRequested := false }

end Sys2Proof.Machine
end

