-- ==== Sys2Proof/Machine/Step.lean ====
section
/-! DEFINITION. One step of the hart (spec/30_encoding.md R220). -/

namespace Sys2Proof.Machine

open Sys2Proof

/-- `Step` (R220): nothing on a halted hart, else an interrupt entry, else one instruction.  A raise anywhere is a trap
entry with the pc of the instruction, and takes back the recency its TLB hits renewed (`State.settle`). -/
def step (s : State) : Host.Outcome State Fault Refusal :=
  match s.boundary with
  | some s' => .next s'
  | none =>
    match s.fetchInstr with
    | (s1, .error (e, tval)) => s.settle (s1.raise e tval)
    | (s1, .ok i) => s.settle (exec i s1.clearTrapped)

/-- `s` with the instruction of `nbits` bits `w` where `step` fetches its next instruction (log entry 5). -/
def State.withFetchWord (s : State) (nbits w : Nat) : State := s.placeWord nbits w

end Sys2Proof.Machine
end

