-- ==== Sys2Proof/Safety.lean ====
section
/-! DEFINITION. The terms the claims use: what a safe step and the machine's invariants are, the arithmetic of the rules on
integers, the shape of each instruction, a trap taken, and the page walk as a relation. -/

namespace Sys2Proof.Machine

open Sys2Proof

/-- The step ends in a next state: the hart has no other outcome (R713, spec/90_conflicts.md C11). -/
def Safe (s : State) : Prop := ∃ t, step s = .next t

/-! ### The invariants -/

/-- A cell holds an XLEN-bit value (R11). -/
def Fits (x : Xlen) (v : Word) : Prop := truncX x v = v

/-- Every register, the pc and every CSR hold XLEN-bit values (R7, R11). -/
structure WidthInv (s : State) : Prop where
  regs : ∀ r : Reg, Fits s.params.xlen (s.reg r)
  pc : Fits s.params.xlen s.pc
  csr : ∀ c : Csr, Fits s.params.xlen (s.readCsr c)

/-- An instruction address: even, and a multiple of 4 without the C extension (R45, R86). -/
def PcAligned (p : Params) (v : Word) : Prop := epcLegal p v = v

/-- The vector registers hold a legal MODE (R85). -/
def TvecOk (v : Word) : Prop := v.getLsbD 1 = false

/-- The alignment of the addresses the hart can go to by itself (R45, R85, R86). -/
structure AlignInv (s : State) : Prop where
  pc : PcAligned s.params s.pc
  mepc : PcAligned s.params s.csr.mepc
  sepc : PcAligned s.params s.csr.sepc
  mtvec : TvecOk s.csr.mtvec
  stvec : TvecOk s.csr.stvec

/-- The bits of the CSRs that are read-only 0 (R83, R84) and the legal MODEs of `satp` (R90). -/
structure CsrInv (s : State) : Prop where
  medeleg : s.csr.medeleg &&& ~~~0xB3FF#64 = 0#64
  mideleg : s.csr.mideleg &&& ~~~0x222#64 = 0#64
  mie : s.csr.mie &&& ~~~0xAAA#64 = 0#64
  mip : s.csr.mip &&& ~~~0x222#64 = 0#64
  satp : s.params.xlen = .rv64 → s.csr.satp.extractLsb' 60 4 = 0#4 ∨ s.csr.satp.extractLsb' 60 4 = 8#4

/-- The TLB keeps its bounds: at most `TLB_K` entries for each intent, each with a level of the scheme and a stamp the
counter has passed (R164, R170, R174). -/
structure TlbInv (s : State) : Prop where
  size : ∀ it, (s.tlb.entries it).length ≤ s.params.tlbK
  level : ∀ it, ∀ e ∈ s.tlb.entries it, e.level < levels s.params.xlen
  stamp : ∀ it, ∀ e ∈ s.tlb.entries it, e.stamp ≤ s.tlb.clock

/-- The memory is in canonical form and lists only physical addresses (R140). -/
structure MemInv (s : State) : Prop where
  wf : Memory.wf s.mem
  range : ∀ c ∈ s.mem, c.1 < 2 ^ s.params.paBits

/-! ### Arithmetic on integers (R11) -/

/-- `unsigned(v)` of an XLEN-bit value -/
def uns (x : Xlen) (v : Word) : Int := ((truncX x v).toNat : Int)

/-- `signed(v)` of an XLEN-bit value -/
def sgn (x : Xlen) (v : Word) : Int :=
  match x with
  | .rv32 => (v.setWidth 32).toInt
  | .rv64 => v.toInt

/-- `trunc_XLEN(i)` -/
def truncI (x : Xlen) (i : Int) : Word := truncX x (BitVec.ofInt 64 i)

/-- `unsigned(v[31:0])` -/
def uns32 (v : Word) : Int := ((v.setWidth 32).toNat : Int)

/-- `signed(v[31:0])` -/
def sgn32 (v : Word) : Int := (v.setWidth 32).toInt

/-- `sext_32(trunc_32(i))` -/
def sext32I (x : Xlen) (i : Int) : Word := truncI x (BitVec.ofInt 32 i).toInt

/-- `2^(XLEN-1)`, whose negation is the least signed value (R360) -/
def halfRange : Xlen → Int
  | .rv32 => 2 ^ 31
  | .rv64 => 2 ^ 63

/-- `2^XLEN` -/
def fullRange : Xlen → Int
  | .rv32 => 2 ^ 32
  | .rv64 => 2 ^ 64

/-- `x[rd] <- v; pc <- npc`: the state a computational instruction of `ilen` bytes leaves (R12, R13, R44). -/
def State.wrote (s : State) (ilen : Nat) (rd : Reg) (v : Word) : State := (s.setReg rd v).advance ilen

/-- The sum `mem[pa_k] << 8k` of the bytes at some addresses (R142, R160). -/
def leNat (m : Memory) : List Nat → Nat
  | [] => 0
  | a :: as => (m.read a).toNat + 256 * leNat m as

/-! ### Outcomes -/

/-- The TLB `new` differs from `old` only in entries inserted since (R160, R173, R622): a slot holds its old entry, its
stamp included, or a valid entry with a level of the scheme and a fresh stamp, which is not the old entry with its stamp
renewed; no array grows past `TLB_K`; with nothing inserted the counter stands where it stood. -/
structure Tlb.OnlyFills (p : Params) (old new : Tlb) : Prop where
  slot : ∀ (it : Intent) (k : Nat) (e : TlbEntry), (new.entries it)[k]? = some e →
    (old.entries it)[k]? = some e
      ∨ (e.valid = true ∧ e.level < levels p.xlen ∧ old.clock < e.stamp ∧ e.stamp ≤ new.clock
        ∧ ∀ o : TlbEntry, (old.entries it)[k]? = some o → { e with stamp := o.stamp } ≠ o)
  size : ∀ it : Intent, (old.entries it).length ≤ (new.entries it).length
    ∧ (new.entries it).length ≤ max (old.entries it).length p.tlbK
  clock : old.clock ≤ new.clock
  still : (∀ it : Intent, new.entries it = old.entries it) → new.clock = old.clock

/-- `t` is `s` after a trap of an instruction: nothing but insertions into the TLB came before the trap entry (R15,
R622). -/
def Trapped (s t : State) : Prop :=
  ∃ (tlb : Tlb) (e : Exc) (tval : Word), Tlb.OnlyFills s.params s.tlb tlb ∧ t = { s with tlb := tlb }.excState e tval

/-- A jump to `t` of an instruction of `ilen` bytes: the link value `pc + ilen` in `rd`, and the halt condition
"the new pc is 0 and `x1` is 0 after its write" (R391, R392, R697 (a)). -/
def State.jumped (s : State) (ilen : Nat) (rd : Reg) (t : Word) : State :=
  let u := (s.setReg rd (truncI s.params.xlen (uns s.params.xlen s.pc + ilen))).setPc t
  { u with haltRequested := s.haltRequested || (decide (t = 0#64) && decide (u.reg 1#5 = 0#64)) }

/-- `CheckTarget(t)` raises nothing (R390). -/
def State.goodTarget (s : State) (t : Word) : Prop := s.params.cEnabled = true ∨ t.getLsbD 1 = false

/-- A load of `n` bytes at `va` completes with `rd` holding `val` of the bytes, whenever the access is allowed and its
bytes are at `pas` (R420). -/
def LoadsAs (i : Instr) (s : State) (ilen n : Nat) (rd : Reg) (va : Word) (val : Nat → Int) : Prop :=
  (s.params.strictAlign = false ∨ va.toNat % n = 0) → ∀ pas, s.access va n .load = .ok pas →
    exec i s = .next ((s.afterAccess va n .load).wrote ilen rd (truncI s.params.xlen (val (leNat s.mem pas))))

/-- A store of the low `n` bytes of `v` at `va` completes, with the reservation cleared, whenever the access is allowed
and its bytes are at `pas`: byte `k` of `v` is then at the `k`-th address (R421, R142). -/
def StoresAs (i : Instr) (s : State) (ilen n : Nat) (va v : Word) : Prop :=
  (s.params.strictAlign = false ∨ va.toNat % n = 0) → ∀ pas, s.access va n .store = .ok pas →
    ∃ t, exec i s = .next t ∧ t = ((({ s.afterAccess va n .store with mem := t.mem }).clearResv).advance ilen) ∧
      (s.mem.wf → ∀ (k : Nat) (h : k < pas.length), t.mem.read pas[k] = BitVec.ofNat 8 (v.toNat / 2 ^ (8 * k)))

/-- An AMO of `n` bytes at `va` completes: `new` is at `pas`, `rd` holds `old`, the reservation is cleared (R460). -/
def AmoAs (i : Instr) (s : State) (n : Nat) (rd : Reg) (va : Word) (old : Nat → Int) (new : Nat → Int) : Prop :=
  va.toNat % n = 0 → ∀ pas, s.access va n .store = .ok pas →
    exec i s = .next (((((s.afterAccess va n .store).storeAt pas
      (BitVec.ofInt 64 (new (leNat s.mem pas)))).setReg rd (truncI s.params.xlen (old (leNat s.mem pas)))).clearResv).advance 4)

/-- The index table of the CSRs (R56). -/
def csrTable : List (Nat × Csr) :=
  [(0x100, .sstatus), (0x104, .sie), (0x105, .stvec), (0x140, .sscratch), (0x141, .sepc), (0x142, .scause),
    (0x143, .stval), (0x144, .sip), (0x180, .satp), (0x300, .mstatus), (0x301, .misa), (0x302, .medeleg),
    (0x303, .mideleg), (0x304, .mie), (0x305, .mtvec), (0x340, .mscratch), (0x341, .mepc), (0x342, .mcause),
    (0x343, .mtval), (0x344, .mip), (0xF11, .mvendorid), (0xF12, .marchid), (0xF13, .mimpid), (0xF14, .mhartid)]

/-- A CSR instruction is legal (R490): the index names `c`, the mode may access it, and a read-only CSR is not written. -/
def CsrLegal (s : State) (csr : CsrIndex) (writes : Prop) (c : Csr) : Prop :=
  (csr.toNat, c) ∈ csrTable ∧ csr.toNat / 256 % 4 ≤ Priv.rank s.priv ∧ ¬ (writes ∧ csr.toNat / 1024 = 3)

/-- The register that stores a CSR: the views share the storage of their machine counterparts (R81, R84). -/
def Csr.home : Csr → Csr
  | .sstatus => .mstatus
  | .sie => .mie
  | .sip => .mip
  | c => c

/-- SFENCE.VMA with these registers invalidates `e` (R519): by address, on the bits `va[VALEN-1:12]` from the entry's level
up, and by ASID, on entries that are not global; `x0` as an index selects every address or every ASID. -/
def FenceSelects (s : State) (rs1 rs2 : Reg) (e : TlbEntry) : Prop :=
  (rs1 = 0#5 ∨ e.vpn.toNat / 2 ^ (vpnBits s.params.xlen * e.level)
    = (s.reg rs1).toNat / 2 ^ 12 % 2 ^ (vpnBits s.params.xlen * levels s.params.xlen)
        / 2 ^ (vpnBits s.params.xlen * e.level))
  ∧ (rs2 = 0#5 ∨ (e.g = false ∧ e.asid.toNat
    = (s.reg rs2).toNat % 2 ^ (match s.params.xlen with | .rv32 => 9 | .rv64 => 16)))

/-- An interrupt of code `c` is pending and enabled, and its delegation bit is `deleg` (R634). -/
def Candidate (s : State) (deleg : Bool) (c : Nat) : Prop :=
  c ∈ [11, 3, 7, 9, 1, 5] ∧ s.csr.mip.getLsbD c = true ∧ s.csr.mie.getLsbD c = true ∧ s.csr.mideleg.getLsbD c = deleg

end Sys2Proof.Machine

namespace Sys2Proof

open Sys2Proof.Machine

/-! ### The shapes of the instructions -/

/-- The kinds of effect. -/
inductive Shape where
  /-- writes `rd`, nothing else (files 40 and 41) -/
  | compute
  | jump
  | branch
  | load
  | store
  | lr
  | sc
  | amo
  | csr
  /-- FENCE, FENCE.I, WFI: only the pc advances -/
  | idle
  | tlbFence
  /-- ECALL, EBREAK, C.EBREAK: take an exception -/
  | call
  | ret
  /-- the compressed floating-point forms -/
  | noFpu
  deriving DecidableEq, Repr

/-- The shape of an instruction: what kind of effect its rule gives it (spec files 40 to 47). -/
def Instr.shape : Instr → Shape
  | .lui .. | .auipc .. | .addi .. | .slti .. | .sltiu .. | .xori .. | .ori .. | .andi .. | .slli .. | .srli ..
    | .srai .. | .add .. | .sub .. | .sll .. | .slt .. | .sltu .. | .xor .. | .srl .. | .sra .. | .or .. | .and
    .. | .addiw .. | .slliw .. | .srliw .. | .sraiw .. | .addw .. | .subw .. | .sllw .. | .srlw .. | .sraw .. |
    .mul .. | .mulh .. | .mulhsu .. | .mulhu .. | .div .. | .divu .. | .rem .. | .remu .. | .mulw .. | .divw ..
    | .divuw .. | .remw .. | .remuw .. | .cAddi4spn .. | .cNop .. | .cAddi .. | .cAddiw .. | .cLi .. |
    .cAddi16sp .. | .cLui .. | .cSrli .. | .cSrai .. | .cAndi .. | .cSub .. | .cXor .. | .cOr .. | .cAnd .. |
    .cSubw .. | .cAddw .. | .cSlli .. | .cMv .. | .cAdd .. => .compute
  | .jal .. | .jalr .. | .cJal .. | .cJ .. | .cJr .. | .cJalr .. => .jump
  | .beq .. | .bne .. | .blt .. | .bge .. | .bltu .. | .bgeu .. | .cBeqz .. | .cBnez .. => .branch
  | .lb .. | .lh .. | .lw .. | .ld .. | .lbu .. | .lhu .. | .lwu .. | .cLw .. | .cLd .. | .cLwsp .. | .cLdsp ..
    => .load
  | .sb .. | .sh .. | .sw .. | .sd .. | .cSw .. | .cSd .. | .cSwsp .. | .cSdsp .. => .store
  | .lrW .. | .lrD .. => .lr
  | .scW .. | .scD .. => .sc
  | .amoswapW .. | .amoswapD .. | .amoaddW .. | .amoaddD .. | .amoxorW .. | .amoxorD .. | .amoandW .. | .amoandD
    .. | .amoorW .. | .amoorD .. | .amominW .. | .amominD .. | .amomaxW .. | .amomaxD .. | .amominuW .. |
    .amominuD .. | .amomaxuW .. | .amomaxuD .. => .amo
  | .csrrw .. | .csrrs .. | .csrrc .. | .csrrwi .. | .csrrsi .. | .csrrci .. => .csr
  | .fence .. | .fenceI .. | .wfi => .idle
  | .sfenceVma .. => .tlbFence
  | .ecall | .ebreak | .cEbreak => .call
  | .sret | .mret => .ret
  | .cFld .. | .cFlw .. | .cFsd .. | .cFsw .. | .cFldsp .. | .cFlwsp .. | .cFsdsp .. | .cFswsp .. => .noFpu

/-- The register an instruction's rule names as its destination; `x0` where it names none. -/
def Instr.dest : Instr → Reg
  | .lui rd _ | .auipc rd _ | .addi rd _ _ | .slti rd _ _ | .sltiu rd _ _ | .xori rd _ _ | .ori rd _ _ | .andi
    rd _ _ | .slli rd _ _ | .srli rd _ _ | .srai rd _ _ | .add rd _ _ | .sub rd _ _ | .sll rd _ _ | .slt rd _ _
    | .sltu rd _ _ | .xor rd _ _ | .srl rd _ _ | .sra rd _ _ | .or rd _ _ | .and rd _ _ | .addiw rd _ _ | .slliw
    rd _ _ | .srliw rd _ _ | .sraiw rd _ _ | .addw rd _ _ | .subw rd _ _ | .sllw rd _ _ | .srlw rd _ _ | .sraw
    rd _ _ | .mul rd _ _ | .mulh rd _ _ | .mulhsu rd _ _ | .mulhu rd _ _ | .div rd _ _ | .divu rd _ _ | .rem rd
    _ _ | .remu rd _ _ | .mulw rd _ _ | .divw rd _ _ | .divuw rd _ _ | .remw rd _ _ | .remuw rd _ _ | .jal rd _
    | .jalr rd _ _ | .lb rd _ _ | .lh rd _ _ | .lw rd _ _ | .ld rd _ _ | .lbu rd _ _ | .lhu rd _ _ | .lwu rd _ _
    | .lrW _ _ rd _ | .lrD _ _ rd _ | .scW _ _ rd _ _ | .scD _ _ rd _ _ | .amoswapW _ _ rd _ _ | .amoswapD _ _
    rd _ _ | .amoaddW _ _ rd _ _ | .amoaddD _ _ rd _ _ | .amoxorW _ _ rd _ _ | .amoxorD _ _ rd _ _ | .amoandW _
    _ rd _ _ | .amoandD _ _ rd _ _ | .amoorW _ _ rd _ _ | .amoorD _ _ rd _ _ | .amominW _ _ rd _ _ | .amominD _
    _ rd _ _ | .amomaxW _ _ rd _ _ | .amomaxD _ _ rd _ _ | .amominuW _ _ rd _ _ | .amominuD _ _ rd _ _ |
    .amomaxuW _ _ rd _ _ | .amomaxuD _ _ rd _ _ | .csrrw rd _ _ | .csrrs rd _ _ | .csrrc rd _ _ | .csrrwi rd _ _
    | .csrrsi rd _ _ | .csrrci rd _ _ | .cAddi rd _ | .cAddiw rd _ | .cLi rd _ | .cLui rd _ | .cSlli rd _ |
    .cLwsp rd _ | .cLdsp rd _ | .cMv rd _ | .cAdd rd _ => rd
  | .cAddi4spn rd _ | .cLw rd _ _ | .cLd rd _ _ | .cSrli rd _ | .cSrai rd _ | .cAndi rd _ | .cSub rd _ | .cXor
    rd _ | .cOr rd _ | .cAnd rd _ | .cSubw rd _ | .cAddw rd _ => CReg.reg rd
  | .cJal _ | .cJalr _ => 1#5
  | .cAddi16sp _ => 2#5
  | .beq .. | .bne .. | .blt .. | .bge .. | .bltu .. | .bgeu .. | .sb .. | .sh .. | .sw .. | .sd .. | .fence ..
    | .fenceI .. | .ecall | .ebreak | .sret | .mret | .wfi | .sfenceVma .. | .cFld .. | .cFlw .. | .cFsd .. |
    .cSw .. | .cFsw .. | .cSd .. | .cNop .. | .cJ .. | .cBeqz .. | .cBnez .. | .cFldsp .. | .cFlwsp .. | .cJr ..
    | .cEbreak | .cFsdsp .. | .cSwsp .. | .cFswsp .. | .cSdsp .. => 0#5

/-- The data access an instruction's rule makes: the virtual address, the number of bytes and the intent, computed with
the functions the meanings use (R420, R421, R450, R451, R460).  An SC whose reservation does not match makes none. -/
def Instr.dataAccess (s : State) : Instr → Option (Word × Nat × Intent)
  | .lb _ rs1 imm | .lbu _ rs1 imm => some (s.addr rs1 (imm12 imm), 1, .load)
  | .lh _ rs1 imm | .lhu _ rs1 imm => some (s.addr rs1 (imm12 imm), 2, .load)
  | .lw _ rs1 imm | .lwu _ rs1 imm => some (s.addr rs1 (imm12 imm), 4, .load)
  | .ld _ rs1 imm => some (s.addr rs1 (imm12 imm), 8, .load)
  | .sb rs1 _ imm => some (s.addr rs1 (imm12 imm), 1, .store)
  | .sh rs1 _ imm => some (s.addr rs1 (imm12 imm), 2, .store)
  | .sw rs1 _ imm => some (s.addr rs1 (imm12 imm), 4, .store)
  | .sd rs1 _ imm => some (s.addr rs1 (imm12 imm), 8, .store)
  | .cLw _ rs1 uimm => some (s.addr (CReg.reg rs1) (uimmCW uimm), 4, .load)
  | .cLd _ rs1 uimm => some (s.addr (CReg.reg rs1) (uimmCD uimm), 8, .load)
  | .cSw rs1 _ uimm => some (s.addr (CReg.reg rs1) (uimmCW uimm), 4, .store)
  | .cSd rs1 _ uimm => some (s.addr (CReg.reg rs1) (uimmCD uimm), 8, .store)
  | .cLwsp _ uimm => some (s.addr 2#5 (uimmCWsp uimm), 4, .load)
  | .cLdsp _ uimm => some (s.addr 2#5 (uimmCDsp uimm), 8, .load)
  | .cSwsp _ uimm => some (s.addr 2#5 (uimmCWsp uimm), 4, .store)
  | .cSdsp _ uimm => some (s.addr 2#5 (uimmCDsp uimm), 8, .store)
  | .lrW _ _ _ rs1 => some (s.reg rs1, 4, .load)
  | .lrD _ _ _ rs1 => some (s.reg rs1, 8, .load)
  | .scW _ _ _ rs1 _ =>
    if s.resv = some { addr := s.reg rs1, size := .word } then some (s.reg rs1, 4, .store) else none
  | .scD _ _ _ rs1 _ =>
    if s.resv = some { addr := s.reg rs1, size := .double } then some (s.reg rs1, 8, .store) else none
  | .amoswapW _ _ _ rs1 _ | .amoaddW _ _ _ rs1 _ | .amoxorW _ _ _ rs1 _ | .amoandW _ _ _ rs1 _ | .amoorW _ _ _
    rs1 _ | .amominW _ _ _ rs1 _ | .amomaxW _ _ _ rs1 _ | .amominuW _ _ _ rs1 _ | .amomaxuW _ _ _ rs1 _ => some
    (s.reg rs1, 4, .store)
  | .amoswapD _ _ _ rs1 _ | .amoaddD _ _ _ rs1 _ | .amoxorD _ _ _ rs1 _ | .amoandD _ _ _ rs1 _ | .amoorD _ _ _
    rs1 _ | .amominD _ _ _ rs1 _ | .amomaxD _ _ _ rs1 _ | .amominuD _ _ _ rs1 _ | .amomaxuD _ _ _ rs1 _ => some
    (s.reg rs1, 8, .store)
  | .lui .. | .auipc .. | .addi .. | .slti .. | .sltiu .. | .xori .. | .ori .. | .andi .. | .slli .. | .srli ..
    | .srai .. | .add .. | .sub .. | .sll .. | .slt .. | .sltu .. | .xor .. | .srl .. | .sra .. | .or .. | .and
    .. | .addiw .. | .slliw .. | .srliw .. | .sraiw .. | .addw .. | .subw .. | .sllw .. | .srlw .. | .sraw .. |
    .mul .. | .mulh .. | .mulhsu .. | .mulhu .. | .div .. | .divu .. | .rem .. | .remu .. | .mulw .. | .divw ..
    | .divuw .. | .remw .. | .remuw .. | .jal .. | .jalr .. | .beq .. | .bne .. | .blt .. | .bge .. | .bltu .. |
    .bgeu .. | .csrrw .. | .csrrs .. | .csrrc .. | .csrrwi .. | .csrrsi .. | .csrrci .. | .fence .. | .fenceI ..
    | .ecall | .ebreak | .sret | .mret | .wfi | .sfenceVma .. | .cAddi4spn .. | .cFld .. | .cFlw .. | .cFsd .. |
    .cFsw .. | .cNop .. | .cAddi .. | .cJal .. | .cAddiw .. | .cLi .. | .cAddi16sp .. | .cLui .. | .cSrli .. |
    .cSrai .. | .cAndi .. | .cSub .. | .cXor .. | .cOr .. | .cAnd .. | .cSubw .. | .cAddw .. | .cJ .. | .cBeqz
    .. | .cBnez .. | .cSlli .. | .cFldsp .. | .cFlwsp .. | .cJr .. | .cMv .. | .cEbreak | .cJalr .. | .cAdd .. |
    .cFsdsp .. | .cFswsp .. => none

end Sys2Proof

namespace Sys2Proof.Machine

open Sys2Proof

/-- `i` is a branch whose condition holds in `s` (R393 to R398). -/
inductive BranchTaken (s : State) : Instr → Prop
  | beq {rs1 rs2 : Reg} (imm : BitVec 12) (h : uns s.params.xlen (s.reg rs1) = uns s.params.xlen (s.reg rs2)) :
    BranchTaken s (.beq rs1 rs2 imm)
  | bne {rs1 rs2 : Reg} (imm : BitVec 12) (h : uns s.params.xlen (s.reg rs1) ≠ uns s.params.xlen (s.reg rs2)) :
    BranchTaken s (.bne rs1 rs2 imm)
  | blt {rs1 rs2 : Reg} (imm : BitVec 12) (h : sgn s.params.xlen (s.reg rs1) < sgn s.params.xlen (s.reg rs2)) :
    BranchTaken s (.blt rs1 rs2 imm)
  | bge {rs1 rs2 : Reg} (imm : BitVec 12) (h : sgn s.params.xlen (s.reg rs2) ≤ sgn s.params.xlen (s.reg rs1)) :
    BranchTaken s (.bge rs1 rs2 imm)
  | bltu {rs1 rs2 : Reg} (imm : BitVec 12) (h : uns s.params.xlen (s.reg rs1) < uns s.params.xlen (s.reg rs2)) :
    BranchTaken s (.bltu rs1 rs2 imm)
  | bgeu {rs1 rs2 : Reg} (imm : BitVec 12) (h : uns s.params.xlen (s.reg rs2) ≤ uns s.params.xlen (s.reg rs1)) :
    BranchTaken s (.bgeu rs1 rs2 imm)

/-- `i` is a CSR instruction with CSR index `csr` (R225, R231). -/
inductive CsrForm : Instr → CsrIndex → Prop
  | csrrw (rd rs1 : Reg) (csr : CsrIndex) : CsrForm (.csrrw rd rs1 csr) csr
  | csrrs (rd rs1 : Reg) (csr : CsrIndex) : CsrForm (.csrrs rd rs1 csr) csr
  | csrrc (rd rs1 : Reg) (csr : CsrIndex) : CsrForm (.csrrc rd rs1 csr) csr
  | csrrwi (rd : Reg) (uimm : BitVec 5) (csr : CsrIndex) : CsrForm (.csrrwi rd uimm csr) csr
  | csrrsi (rd : Reg) (uimm : BitVec 5) (csr : CsrIndex) : CsrForm (.csrrsi rd uimm csr) csr
  | csrrci (rd : Reg) (uimm : BitVec 5) (csr : CsrIndex) : CsrForm (.csrrci rd uimm csr) csr

/-! ### The page walk as a relation (R165) -/

/-- How a walk ends. -/
inductive WalkEnd where
  | leaf (pte : Nat) (level : Nat)
  | pageFault
  | accessFault
  deriving DecidableEq, Repr

/-- The physical address of the entry of level `i` for `va` in the table at `a`: `a + VPN[i](va) * PTESIZE` (R164). -/
def entryAddr (x : Xlen) (a i : Nat) (va : Word) : Nat :=
  match x with
  | .rv32 => a + va.toNat / 2 ^ (12 + 10 * i) % 1024 * 4
  | .rv64 => a + va.toNat / 2 ^ (12 + 9 * i) % 512 * 8

/-- PTESIZE (R164) -/
def entryBytes : Xlen → Nat
  | .rv32 => 4
  | .rv64 => 8

/-- Bit `i` of an entry. -/
def entryBit (pte i : Nat) : Prop := pte / 2 ^ i % 2 = 1

/-- `pte.PPN` (R169): 22 bits on Sv32, 44 bits on Sv39, from bit 10 up. -/
def entryPpn (x : Xlen) (pte : Nat) : Nat :=
  match x with
  | .rv32 => pte / 2 ^ 10 % 2 ^ 22
  | .rv64 => pte / 2 ^ 10 % 2 ^ 44

/-- The physical address of the root table, from `satp.PPN` (R90, R165). -/
def rootTable (x : Xlen) (satp : Nat) : Nat :=
  match x with
  | .rv32 => satp % 2 ^ 22 * 4096
  | .rv64 => satp % 2 ^ 44 * 4096

/-- The loop of `Walk`, line by line (R165): from level `i`, with the table at physical address `a`. -/
inductive Walks (p : Params) (m : Memory) (va : Word) : Nat → Nat → WalkEnd → Prop
  /-- a byte of the entry is not accessible -/
  | denied {i a k : Nat} (hk : k < entryBytes p.xlen)
      (h : accessible p (entryAddr p.xlen a i va + k) = false) : Walks p m va i a .accessFault
  /-- V = 0, or R = 0 and W = 1 -/
  | invalid {i a : Nat} (pte : Nat)
      (hacc : ∀ k, k < entryBytes p.xlen → accessible p (entryAddr p.xlen a i va + k) = true)
      (hpte : pte = leNat m (addrRange (entryAddr p.xlen a i va) (entryBytes p.xlen)))
      (h : ¬ entryBit pte 0 ∨ (¬ entryBit pte 1 ∧ entryBit pte 2)) : Walks p m va i a .pageFault
  /-- a leaf: R = 1 or X = 1 -/
  | leaf {i a : Nat} (pte : Nat)
      (hacc : ∀ k, k < entryBytes p.xlen → accessible p (entryAddr p.xlen a i va + k) = true)
      (hpte : pte = leNat m (addrRange (entryAddr p.xlen a i va) (entryBytes p.xlen)))
      (hv : entryBit pte 0) (hw : entryBit pte 1 ∨ ¬ entryBit pte 2) (h : entryBit pte 1 ∨ entryBit pte 3) :
      Walks p m va i a (.leaf pte i)
  /-- a pointer at level 0 -/
  | bottom {a : Nat} (pte : Nat)
      (hacc : ∀ k, k < entryBytes p.xlen → accessible p (entryAddr p.xlen a 0 va + k) = true)
      (hpte : pte = leNat m (addrRange (entryAddr p.xlen a 0 va) (entryBytes p.xlen)))
      (hv : entryBit pte 0) (h : ¬ entryBit pte 1 ∧ ¬ entryBit pte 2 ∧ ¬ entryBit pte 3) :
      Walks p m va 0 a .pageFault
  /-- a pointer: on to the table it names -/
  | pointer {i a : Nat} (pte : Nat) {r : WalkEnd}
      (hacc : ∀ k, k < entryBytes p.xlen → accessible p (entryAddr p.xlen a (i + 1) va + k) = true)
      (hpte : pte = leNat m (addrRange (entryAddr p.xlen a (i + 1) va) (entryBytes p.xlen)))
      (hv : entryBit pte 0) (h : ¬ entryBit pte 1 ∧ ¬ entryBit pte 2 ∧ ¬ entryBit pte 3)
      (next : Walks p m va i (entryPpn p.xlen pte * 4096) r) : Walks p m va (i + 1) a r

/-- What the model's `walk` answers, as a `WalkEnd`. -/
def walkEnd : Except MemFail (Word × Nat) → WalkEnd
  | .ok (pte, i) => .leaf pte.toNat i
  | .error .page => .pageFault
  | .error .access => .accessFault

end Sys2Proof.Machine
end

