-- ==== Sys2Proof/Certificates/Slice0/Obligations.lean ====
section
/-! DEFINITION. The statements for the provers, in the terms of Safety.lean. -/

section

open Sys2Proof Sys2Proof.Machine

/-! ### Encoding -/

/-- Words written out from the formats and maps of 30_encoding.md decode to the instructions they stand for. -/
def Obligations.SpecWordsDecode : Prop :=
  decodeInst .rv32 true (.full 0x00108513#32) = .ok (.addi 10#5 1#5 1#12)
  ∧ decodeInst .rv64 true (.full 0x80000537#32) = .ok (.lui 10#5 0x80000#20)
  ∧ decodeInst .rv64 true (.full 0x03F59513#32) = .ok (.slli 10#5 11#5 63#6)
  ∧ decodeInst .rv32 true (.full 0x03F59513#32) = .error .noFunction
  ∧ decodeInst .rv64 true (.full 0x40C5D53B#32) = .ok (.sraw 10#5 11#5 12#5)
  ∧ decodeInst .rv32 true (.full 0x02C5A733#32) = .ok (.mulhsu 14#5 11#5 12#5)
  ∧ decodeInst .rv32 true (.full 0xFFDFF06F#32) = .ok (.jal 0#5 0xFFFFE#20)
  ∧ decodeInst .rv32 true (.full 0xFE001CE3#32) = .ok (.bne 0#5 0#5 0xFFC#12)
  ∧ decodeInst .rv64 true (.full 0x00053603#32) = .ok (.ld 12#5 10#5 0#12)
  ∧ decodeInst .rv32 true (.full 0x00C581A3#32) = .ok (.sb 11#5 12#5 3#12)
  ∧ decodeInst .rv32 true (.full 0x1875232F#32) = .ok (.scW false false 6#5 10#5 7#5)
  ∧ decodeInst .rv64 true (.full 0xE06533AF#32) = .ok (.amomaxuD false false 7#5 10#5 6#5)
  ∧ decodeInst .rv32 true (.full 0x1402D073#32) = .ok (.csrrwi 0#5 5#5 0x140#12)
  ∧ decodeInst .rv32 true (.full 0x0FF0000F#32) = .ok (.fence 0#4 15#4 15#4 0#5 0#5)
  ∧ decodeInst .rv32 true (.full 0x30200073#32) = .ok .mret
  ∧ decodeInst .rv32 true (.full 0xFFFFFFFF#32) = .error .noMajorOpcode
  ∧ decodeInst .rv32 true (.half 0x2201#16) = .ok (.cJal 0x80#11)
  ∧ decodeInst .rv64 true (.half 0x2201#16) = .ok (.cAddiw 4#5 0#6)
  ∧ decodeInst .rv64 true (.half 0x2001#16) = .error .reservedParcel
  ∧ decodeInst .rv32 true (.half 0x0808#16) = .ok (.cAddi4spn 2#3 4#8)
  ∧ decodeInst .rv32 true (.half 0x717D#16) = .ok (.cAddi16sp 0x3F#6)
  ∧ decodeInst .rv32 true (.half 0xFC75#16) = .ok (.cBnez 0#3 0xFE#8)
  ∧ decodeInst .rv64 true (.half 0xE82A#16) = .ok (.cSdsp 10#5 2#6)
  ∧ decodeInst .rv32 true (.half 0x2504#16) = .ok (.cFld 1#3 2#3 1#5)

/-- Decoding the words the encoder makes of a well-formed instruction gives the instruction back, on both widths. -/
def Obligations.DecodeOfEncode : Prop :=
  ∀ (x : Xlen) (i : Instr), wellFormed x i = true → decodeInst x true (encode i) = .ok i

/-- The other direction: a word that decodes is the word of the instruction it decodes to, which is well formed; so no two
words decode to one instruction and nothing else decodes. -/
def Obligations.EncodeOfDecode : Prop :=
  ∀ (x : Xlen) (c : Bool) (iw : InstWord) (i : Instr), decodeInst x c iw = .ok i →
    encode i = iw ∧ wellFormed x i = true ∧ (i.compressed = true → c = true)

/-- From bytes: the bytes of a well-formed instruction, whatever follows them, decode to it and leave the rest. -/
def Obligations.DecodeBytesOfEncode : Prop :=
  ∀ (x : Xlen) (i : Instr) (rest : List Byte), wellFormed x i = true →
    decodeBytes x true ((encode i).bytes ++ rest) = .ok (i, rest)

/-- The reserved compressed code points, item by item, and every parcel without the C extension, are Illegal. -/
def Obligations.ReservedParcelsAreIllegal : Prop :=
  (∀ (x : Xlen) (c : BitVec 16),
    ((Parcel.quad c = 0#2 ∧ Parcel.funct3 c = 0#3 ∧ Parcel.imm8 c = 0#8)
    ∨ (Parcel.quad c = 0#2 ∧ Parcel.funct3 c = 4#3)
    ∨ (x = .rv64 ∧ Parcel.quad c = 1#2 ∧ Parcel.funct3 c = 1#3 ∧ Parcel.rd c = 0#5)
    ∨ (Parcel.quad c = 1#2 ∧ Parcel.funct3 c = 3#3 ∧ Parcel.b12 c = 0#1 ∧ Parcel.lo5 c = 0#5)
    ∨ (Parcel.quad c = 1#2 ∧ Parcel.funct3 c = 4#3 ∧ Parcel.f2 c = 3#2 ∧ Parcel.b12 c = 1#1
        ∧ (Parcel.mid2 c = 2#2 ∨ Parcel.mid2 c = 3#2))
    ∨ (x = .rv32 ∧ Parcel.quad c = 1#2 ∧ Parcel.funct3 c = 4#3 ∧ Parcel.f2 c = 3#2 ∧ Parcel.b12 c = 1#1
        ∧ (Parcel.mid2 c = 0#2 ∨ Parcel.mid2 c = 1#2))
    ∨ (x = .rv32 ∧ Parcel.quad c = 1#2 ∧ Parcel.funct3 c = 4#3 ∧ (Parcel.f2 c = 0#2 ∨ Parcel.f2 c = 1#2)
        ∧ Parcel.b12 c = 1#1)
    ∨ (x = .rv32 ∧ Parcel.quad c = 2#2 ∧ Parcel.funct3 c = 0#3 ∧ Parcel.b12 c = 1#1)
    ∨ (Parcel.quad c = 2#2 ∧ Parcel.funct3 c = 2#3 ∧ Parcel.rd c = 0#5)
    ∨ (x = .rv64 ∧ Parcel.quad c = 2#2 ∧ Parcel.funct3 c = 3#3 ∧ Parcel.rd c = 0#5)
    ∨ (Parcel.quad c = 2#2 ∧ Parcel.funct3 c = 4#3 ∧ Parcel.b12 c = 0#1 ∧ Parcel.rd c = 0#5 ∧ Parcel.lo5 c = 0#5)) →
    decodeInst x true (.half c) = .error .reservedParcel)
  ∧ (∀ (x : Xlen) (c : BitVec 16), decodeInst x false (.half c) = .error .compressedDisabled)

/-! ### The step -/

/-- When no halt and no interrupt stands in the way and the bytes at the pc decode to `i`, the step is `exec` of `i`: first
with the bytes read from memory at the untranslated pc, then for any fetch, which changes nothing but the TLB.  The mark
`trapped` (log entry 16) is clear before; an instruction sets it exactly when it traps, and of a trap the step keeps only
what the instruction inserted into the TLB. -/
def Obligations.StepRunsDecodedInstruction : Prop :=
  (∀ (s : State) (iw : InstWord) (i : Instr), s.haltRequested = false → s.interruptPending = none →
    s.translating .fetch = false → s.params.paBits ≤ s.params.xlen.bits →
    (∀ k, k < iw.ilen → accessible s.params (s.pc.toNat + k) = true) →
    takeWord ((addrRange s.pc.toNat iw.ilen).map s.mem.read) = .ok (iw, []) →
    decodeInst s.params.xlen s.params.cEnabled iw = .ok i → step s = exec i { s with trapped := false })
  ∧ (∀ (s s1 : State) (iw : InstWord) (i : Instr), s.haltRequested = false → s.interruptPending = none →
    s.fetch = (s1, .ok iw) → decodeInst s.params.xlen s.params.cEnabled iw = .ok i →
    s1 = { s with tlb := s1.tlb } ∧ ∃ t, exec i { s1 with trapped := false } = .next t ∧
      step s = .next (if t.trapped = true then { t with tlb := s.tlb.keepFills t.tlb } else t))
  ∧ (∀ (i : Instr) (s t : State), s.trapped = false → exec i s = .next t → (t.trapped = true ↔ Trapped s t))

/-- A fetch that fails traps with the address of the parcel that failed; a word with no instruction raises
IllegalInstruction with its bits.  Whatever traps in a step, the TLB after it differs from the TLB before it only in entries
inserted: no stamp of another entry has changed. -/
def Obligations.FetchAndDecodeTraps : Prop :=
  (∀ (s : State) (e : Exc), s.haltRequested = false → s.interruptPending = none →
    s.access s.pc 2 .fetch = .error e → step s = .next ((s.afterAccess s.pc 2 .fetch).excState e s.pc))
  ∧ (∀ (s : State) (pas : List Nat) (e : Exc), s.haltRequested = false → s.interruptPending = none →
    s.access s.pc 2 .fetch = .ok pas → leNat s.mem pas % 4 = 3 →
    (s.afterAccess s.pc 2 .fetch).access (s.npc 2) 2 .fetch = .error e →
    let s2 := (s.afterAccess s.pc 2 .fetch).afterAccess (s.npc 2) 2 .fetch
    step s = .next ({ s with tlb := s.tlb.keepFills s2.tlb }.excState e (s.npc 2)))
  ∧ (∀ (s s1 : State) (iw : InstWord) (r : Reject), s.haltRequested = false → s.interruptPending = none →
    s.fetch = (s1, .ok iw) → decodeInst s.params.xlen s.params.cEnabled iw = .error r →
    step s = .next ({ s with tlb := s.tlb.keepFills s1.tlb }.excState .illegalInstruction iw.bits))
  ∧ (∀ s t : State, step s = .next t → t.trapped = true → Tlb.OnlyFills s.params s.tlb t.tlb)

/-- A step of a halted hart answers the same state: the model's choice (DESIGN CHOICE, log entry 7) for the "no step" of
R50, R220 and R702.  Else the first candidate of the order 11, 3, 7, 9, 1, 5 is taken: to M a non-delegated
one while M interrupts are on, and only then to S a delegated one while S interrupts are on; with none, the step goes on. -/
def Obligations.StepBoundary : Prop :=
  (∀ s : State, s.haltRequested = true → step s = .next s)
  ∧ (∀ (s : State) (pre post : List Nat) (c : Nat), s.haltRequested = false →
    [11, 3, 7, 9, 1, 5] = pre ++ c :: post → Candidate s false c → (∀ d ∈ pre, ¬ Candidate s false d) →
    (s.priv ≠ .m ∨ s.csr.mstatus.mie = true) → step s = .next (s.takeInterrupt c .m))
  ∧ (∀ (s : State) (pre post : List Nat) (c : Nat), s.haltRequested = false →
    ((s.priv ≠ .m ∨ s.csr.mstatus.mie = true) → ∀ d, ¬ Candidate s false d) →
    [11, 3, 7, 9, 1, 5] = pre ++ c :: post → Candidate s true c → (∀ d ∈ pre, ¬ Candidate s true d) →
    (s.priv = .u ∨ (s.priv = .s ∧ s.csr.mstatus.sie = true)) → step s = .next (s.takeInterrupt c .s))
  ∧ (∀ s : State, s.haltRequested = false →
    ((s.priv ≠ .m ∨ s.csr.mstatus.mie = true) → ∀ d, ¬ Candidate s false d) →
    ((s.priv = .u ∨ (s.priv = .s ∧ s.csr.mstatus.sie = true)) → ∀ d, ¬ Candidate s true d) → s.boundary = none)

/-! ### Traps -/

/-- Every field of the state after a trap entry to M and to S: the saved pc, mode and interrupt enable, the cause, the
trap value, the new mode, the pc at the vector, the reservation gone, and, the halt request and the
model's mark of a trap (log entry 16) aside, nothing else. -/
def Obligations.TrapEntryFields : Prop :=
  ∀ (s : State) (intr : Bool) (code : Nat) (tval : Word), code < 16 →
    (let t := s.enterTrap intr code tval .m;
      t.csr.mepc = epcLegal s.params s.pc
      ∧ t.csr.mcause = BitVec.ofNat 64 ((if intr then 2 ^ (s.params.xlen.bits - 1) else 0) + code)
      ∧ t.csr.mtval = truncX s.params.xlen tval
      ∧ t.csr.mstatus = { s.csr.mstatus with mpp := s.priv, mpie := s.csr.mstatus.mie, mie := false }
      ∧ t.csr = { s.csr with mepc := t.csr.mepc, mcause := t.csr.mcause, mtval := t.csr.mtval,
                             mstatus := t.csr.mstatus }
      ∧ t.priv = .m ∧ t.pc = trapVector s.params s.csr.mtvec intr code ∧ t.resv = none
      ∧ t.regs = s.regs ∧ t.mem = s.mem ∧ t.tlb = s.tlb ∧ t.params = s.params ∧ t.trapped = true)
    ∧ (let t := s.enterTrap intr code tval .s;
      t.csr.sepc = epcLegal s.params s.pc
      ∧ t.csr.scause = BitVec.ofNat 64 ((if intr then 2 ^ (s.params.xlen.bits - 1) else 0) + code)
      ∧ t.csr.stval = truncX s.params.xlen tval
      ∧ t.csr.mstatus = { s.csr.mstatus with
          spp := decide (s.priv = .s), spie := s.csr.mstatus.sie, sie := false }
      ∧ t.csr = { s.csr with sepc := t.csr.sepc, scause := t.csr.scause, stval := t.csr.stval,
                             mstatus := t.csr.mstatus }
      ∧ t.priv = .s ∧ t.pc = trapVector s.params s.csr.stvec intr code ∧ t.resv = none
      ∧ t.regs = s.regs ∧ t.mem = s.mem ∧ t.tlb = s.tlb ∧ t.params = s.params ∧ t.trapped = true)

/-- Where an exception goes (its code, the delegation, the vector as arithmetic on addresses) and when the entry halts
the hart. -/
def Obligations.TrapTargetVectorHalt : Prop :=
  ((Exc.code .instructionAddressMisaligned = 0 ∧ Exc.code .instructionAccessFault = 1
    ∧ Exc.code .illegalInstruction = 2 ∧ Exc.code .breakpoint = 3 ∧ Exc.code .loadAddressMisaligned = 4
    ∧ Exc.code .loadAccessFault = 5 ∧ Exc.code .storeAddressMisaligned = 6 ∧ Exc.code .storeAccessFault = 7
    ∧ Exc.code .environmentCallFromU = 8 ∧ Exc.code .environmentCallFromS = 9 ∧ Exc.code .environmentCallFromM = 11
    ∧ Exc.code .instructionPageFault = 12 ∧ Exc.code .loadPageFault = 13 ∧ Exc.code .storePageFault = 15))
  ∧ (∀ (s : State) (e : Exc),
    s.excTarget e = if s.csr.medeleg.toNat / 2 ^ e.code % 2 = 1 ∧ s.priv ≠ .m then .s else .m)
  ∧ (∀ (s : State) (e : Exc) (tval : Word), Priv.rank s.priv ≤ Priv.rank (s.excState e tval).priv)
  ∧ (∀ (p : Params) (tvec : Word) (intr : Bool) (code : Nat),
    (trapVector p tvec intr code).toNat =
      if tvec.toNat % 4 = 1 ∧ (intr = true ∨ p.vectoredSync = true) then
        (tvec.toNat / 4 * 4 + 4 * code) % 2 ^ 64 % 2 ^ p.xlen.bits
      else tvec.toNat / 4 * 4)
  ∧ (∀ (s : State) (intr : Bool) (code : Nat) (tval : Word) (g : TrapTarget),
    (s.enterTrap intr code tval g).haltRequested = true ↔
      s.haltRequested = true ∨ (s.tvecOf g).toNat / 4 = 0
        ∨ (intr = false ∧ (s.enterTrap intr code tval g).pc = epcLegal s.params s.pc))

/-- ECALL raises the environment call of the mode with trap value 0; EBREAK and C.EBREAK raise Breakpoint with the pc. -/
def Obligations.EcallEbreakTrap : Prop :=
  (∀ s : State, s.priv = .u → exec .ecall s = .next (s.excState .environmentCallFromU 0#64))
  ∧ (∀ s : State, s.priv = .s → exec .ecall s = .next (s.excState .environmentCallFromS 0#64))
  ∧ (∀ s : State, s.priv = .m → exec .ecall s = .next (s.excState .environmentCallFromM 0#64))
  ∧ (∀ s : State, exec .ebreak s = .next (s.excState .breakpoint s.pc))
  ∧ (∀ s : State, exec .cEbreak s = .next (s.excState .breakpoint s.pc))

/-- MRET in M, and SRET in S or M, restore the mode, the interrupt enable and the pc, and change nothing else. -/
def Obligations.ReturnFromTrap : Prop :=
  (∀ s : State, s.priv = .m → exec .mret s = .next
    { s with
      csr := { s.csr with mstatus := { s.csr.mstatus with
        mie := s.csr.mstatus.mpie, mpie := true, mpp := .u,
        mprv := if s.csr.mstatus.mpp = .m then s.csr.mstatus.mprv else false } }
      resv := none, priv := s.csr.mstatus.mpp, pc := s.csr.mepc })
  ∧ (∀ s : State, s.priv ≠ .u → exec .sret s = .next
    { s with
      csr := { s.csr with mstatus := { s.csr.mstatus with
        sie := s.csr.mstatus.spie, spie := true, spp := false, mprv := false } }
      resv := none, priv := if s.csr.mstatus.spp = true then .s else .u, pc := s.csr.sepc })

/-- A trap and the matching return are lossless, whatever the handler does, if it leaves `xepc` and `mstatus` alone. -/
def Obligations.LosslessReturn : Prop :=
  (∀ (s u : State) (intr : Bool) (code : Nat) (tval : Word), PcAligned s.params s.pc →
    u.priv = .m → u.csr.mepc = (s.enterTrap intr code tval .m).csr.mepc →
    u.csr.mstatus = (s.enterTrap intr code tval .m).csr.mstatus →
    ∃ w, exec .mret u = .next w ∧ w.priv = s.priv ∧ w.pc = s.pc ∧ w.csr.mstatus.mie = s.csr.mstatus.mie
      ∧ w.csr.mstatus.mpie = true ∧ w.csr.mstatus.mpp = .u)
  ∧ (∀ (s u : State) (intr : Bool) (code : Nat) (tval : Word), PcAligned s.params s.pc → s.priv ≠ .m →
    u.priv = .s → u.csr.sepc = (s.enterTrap intr code tval .s).csr.sepc →
    u.csr.mstatus = (s.enterTrap intr code tval .s).csr.mstatus →
    ∃ w, exec .sret u = .next w ∧ w.priv = s.priv ∧ w.pc = s.pc ∧ w.csr.mstatus.sie = s.csr.mstatus.sie
      ∧ w.csr.mstatus.spie = true ∧ w.csr.mstatus.spp = false)

/-- FENCE, FENCE.I and (above U) WFI only advance the pc; MRET, SRET, WFI and SFENCE.VMA below the mode they need raise
IllegalInstruction with their own bits. -/
def Obligations.SystemPrivilege : Prop :=
  (∀ (s : State) (fm pred succ : BitVec 4) (rs1 rd : Reg), exec (.fence fm pred succ rs1 rd) s = .next (s.advance 4))
  ∧ (∀ (s : State) (imm : BitVec 12) (rs1 rd : Reg), exec (.fenceI imm rs1 rd) s = .next (s.advance 4))
  ∧ (∀ s : State, s.priv ≠ .u → exec .wfi s = .next (s.advance 4))
  ∧ (∀ s : State, s.priv = .u → exec .wfi s = .next (s.excState .illegalInstruction 0x10500073#64))
  ∧ (∀ s : State, s.priv ≠ .m → exec .mret s = .next (s.excState .illegalInstruction 0x30200073#64))
  ∧ (∀ s : State, s.priv = .u → exec .sret s = .next (s.excState .illegalInstruction 0x10200073#64))
  ∧ (∀ (s : State) (rs1 rs2 : Reg), s.priv = .u → exec (.sfenceVma rs1 rs2) s =
      .next (s.excState .illegalInstruction (BitVec.ofNat 64 (0x12000073 + rs2.toNat * 2 ^ 20 + rs1.toNat * 2 ^ 15))))

/-- SFENCE.VMA invalidates exactly the entries of its case, by address on the bits of the entry's level and by ASID on
non-global entries; a CSR instruction that writes `satp` invalidates every entry. -/
def Obligations.TlbInvalidation : Prop :=
  (∀ (s : State) (rs1 rs2 : Reg), s.priv ≠ .u →
    ∃ t, exec (.sfenceVma rs1 rs2) s = .next t ∧ t = { s with tlb := t.tlb, pc := s.npc 4 }
      ∧ t.tlb.clock = s.tlb.clock
      ∧ ∀ it : Intent, List.Forall₂ (fun e f : TlbEntry =>
          (FenceSelects s rs1 rs2 e → f = { e with valid := false }) ∧ (¬ FenceSelects s rs1 rs2 e → f = e))
        (s.tlb.entries it) (t.tlb.entries it))
  ∧ (∀ (s t : State) (rd rs1 : Reg) (uimm : BitVec 5) (i : Instr), s.priv ≠ .u →
    (i = .csrrw rd rs1 0x180#12 ∨ i = .csrrwi rd uimm 0x180#12
      ∨ (rs1 ≠ 0#5 ∧ (i = .csrrs rd rs1 0x180#12 ∨ i = .csrrc rd rs1 0x180#12))
      ∨ (uimm ≠ 0#5 ∧ (i = .csrrsi rd uimm 0x180#12 ∨ i = .csrrci rd uimm 0x180#12))) →
    exec i s = .next t → ∀ it : Intent, ∀ e ∈ t.tlb.entries it, e.valid = false)

/-! ### Integer computation -/

/-- LUI, AUIPC and the OP-IMM arithmetic, as arithmetic on integers truncated to XLEN. -/
def Obligations.ImmediateResults : Prop :=
  ∀ (s : State) (rd rs1 : Reg) (imm : BitVec 12) (immu : BitVec 20),
    let x := s.params.xlen
    let a := s.reg rs1
    exec (.lui rd immu) s = .next (s.wrote 4 rd (truncI x (immu ++ 0#12).toInt))
    ∧ exec (.auipc rd immu) s = .next (s.wrote 4 rd (truncI x (uns x s.pc + (immu ++ 0#12).toInt)))
    ∧ exec (.addi rd rs1 imm) s = .next (s.wrote 4 rd (truncI x (uns x a + imm.toInt)))
    ∧ exec (.slti rd rs1 imm) s = .next (s.wrote 4 rd (if sgn x a < imm.toInt then 1#64 else 0#64))
    ∧ exec (.sltiu rd rs1 imm) s = .next (s.wrote 4 rd (if uns x a < uns x (truncI x imm.toInt) then 1#64 else 0#64))
    ∧ exec (.xori rd rs1 imm) s = .next (s.wrote 4 rd (a ^^^ truncI x imm.toInt))
    ∧ exec (.ori rd rs1 imm) s = .next (s.wrote 4 rd (a ||| truncI x imm.toInt))
    ∧ exec (.andi rd rs1 imm) s = .next (s.wrote 4 rd (a &&& truncI x imm.toInt))

/-- The OP-IMM shifts: multiplication and floor division by a power of two. -/
def Obligations.ShiftImmediateResults : Prop :=
  ∀ (s : State) (rd rs1 : Reg) (shamt : BitVec 6), shamt.toNat < s.params.xlen.bits →
    let x := s.params.xlen
    let a := s.reg rs1
    exec (.slli rd rs1 shamt) s = .next (s.wrote 4 rd (truncI x (uns x a * 2 ^ shamt.toNat)))
    ∧ exec (.srli rd rs1 shamt) s = .next (s.wrote 4 rd (truncI x (uns x a / 2 ^ shamt.toNat)))
    ∧ exec (.srai rd rs1 shamt) s = .next (s.wrote 4 rd (truncI x (sgn x a / 2 ^ shamt.toNat)))

/-- The OP arithmetic; a register shift takes the low 5 or 6 bits of `x[rs2]`. -/
def Obligations.RegisterResults : Prop :=
  ∀ (s : State) (rd rs1 rs2 : Reg),
    let x := s.params.xlen
    let a := s.reg rs1
    let b := s.reg rs2
    let sh := b.toNat % x.bits
    exec (.add rd rs1 rs2) s = .next (s.wrote 4 rd (truncI x (uns x a + uns x b)))
    ∧ exec (.sub rd rs1 rs2) s = .next (s.wrote 4 rd (truncI x (uns x a - uns x b)))
    ∧ exec (.sll rd rs1 rs2) s = .next (s.wrote 4 rd (truncI x (uns x a * 2 ^ sh)))
    ∧ exec (.slt rd rs1 rs2) s = .next (s.wrote 4 rd (if sgn x a < sgn x b then 1#64 else 0#64))
    ∧ exec (.sltu rd rs1 rs2) s = .next (s.wrote 4 rd (if uns x a < uns x b then 1#64 else 0#64))
    ∧ exec (.xor rd rs1 rs2) s = .next (s.wrote 4 rd (a ^^^ b))
    ∧ exec (.srl rd rs1 rs2) s = .next (s.wrote 4 rd (truncI x (uns x a / 2 ^ sh)))
    ∧ exec (.sra rd rs1 rs2) s = .next (s.wrote 4 rd (truncI x (sgn x a / 2 ^ sh)))
    ∧ exec (.or rd rs1 rs2) s = .next (s.wrote 4 rd (a ||| b))
    ∧ exec (.and rd rs1 rs2) s = .next (s.wrote 4 rd (a &&& b))

/-- The 32-bit forms: arithmetic on the low words, the 32-bit result sign-extended. -/
def Obligations.WordResults : Prop :=
  ∀ (s : State) (rd rs1 rs2 : Reg) (imm : BitVec 12) (shamt : BitVec 5),
    let x := s.params.xlen
    let a := s.reg rs1
    let b := s.reg rs2
    let sh := b.toNat % 32
    exec (.addiw rd rs1 imm) s = .next (s.wrote 4 rd (sext32I x (uns32 a + imm.toInt)))
    ∧ exec (.slliw rd rs1 shamt) s = .next (s.wrote 4 rd (sext32I x (uns32 a * 2 ^ shamt.toNat)))
    ∧ exec (.srliw rd rs1 shamt) s = .next (s.wrote 4 rd (sext32I x (uns32 a / 2 ^ shamt.toNat)))
    ∧ exec (.sraiw rd rs1 shamt) s = .next (s.wrote 4 rd (sext32I x (sgn32 a / 2 ^ shamt.toNat)))
    ∧ exec (.addw rd rs1 rs2) s = .next (s.wrote 4 rd (sext32I x (uns32 a + uns32 b)))
    ∧ exec (.subw rd rs1 rs2) s = .next (s.wrote 4 rd (sext32I x (uns32 a - uns32 b)))
    ∧ exec (.sllw rd rs1 rs2) s = .next (s.wrote 4 rd (sext32I x (uns32 a * 2 ^ sh)))
    ∧ exec (.srlw rd rs1 rs2) s = .next (s.wrote 4 rd (sext32I x (uns32 a / 2 ^ sh)))
    ∧ exec (.sraw rd rs1 rs2) s = .next (s.wrote 4 rd (sext32I x (sgn32 a / 2 ^ sh)))

/-- Multiplication and division at XLEN, with the division corners. -/
def Obligations.MulDivResults : Prop :=
  ∀ (s : State) (rd rs1 rs2 : Reg),
    let x := s.params.xlen
    let a := s.reg rs1
    let b := s.reg rs2
    exec (.mul rd rs1 rs2) s = .next (s.wrote 4 rd (truncI x (uns x a * uns x b)))
    ∧ exec (.mulh rd rs1 rs2) s = .next (s.wrote 4 rd (truncI x (sgn x a * sgn x b / fullRange x)))
    ∧ exec (.mulhsu rd rs1 rs2) s = .next (s.wrote 4 rd (truncI x (sgn x a * uns x b / fullRange x)))
    ∧ exec (.mulhu rd rs1 rs2) s = .next (s.wrote 4 rd (truncI x (uns x a * uns x b / fullRange x)))
    ∧ exec (.div rd rs1 rs2) s = .next (s.wrote 4 rd (truncI x
        (if sgn x b = 0 then -1
          else if sgn x a = -halfRange x ∧ sgn x b = -1 then -halfRange x
          else (sgn x a).tdiv (sgn x b))))
    ∧ exec (.divu rd rs1 rs2) s = .next (s.wrote 4 rd (truncI x (if uns x b = 0 then -1 else uns x a / uns x b)))
    ∧ exec (.rem rd rs1 rs2) s = .next (s.wrote 4 rd (truncI x
        (if sgn x b = 0 then sgn x a
          else if sgn x a = -halfRange x ∧ sgn x b = -1 then 0
          else sgn x a - sgn x b * (sgn x a).tdiv (sgn x b))))
    ∧ exec (.remu rd rs1 rs2) s =
        .next (s.wrote 4 rd (truncI x (if uns x b = 0 then uns x a else uns x a % uns x b)))

/-- Multiplication and division of the low words, the 32-bit result sign-extended. -/
def Obligations.MulDivWordResults : Prop :=
  ∀ (s : State) (rd rs1 rs2 : Reg),
    let x := s.params.xlen
    let a := s.reg rs1
    let b := s.reg rs2
    exec (.mulw rd rs1 rs2) s = .next (s.wrote 4 rd (sext32I x (uns32 a * uns32 b)))
    ∧ exec (.divw rd rs1 rs2) s = .next (s.wrote 4 rd (sext32I x
        (if sgn32 b = 0 then -1
          else if sgn32 a = -2 ^ 31 ∧ sgn32 b = -1 then -2 ^ 31
          else (sgn32 a).tdiv (sgn32 b))))
    ∧ exec (.divuw rd rs1 rs2) s = .next (s.wrote 4 rd (sext32I x (if uns32 b = 0 then -1 else uns32 a / uns32 b)))
    ∧ exec (.remw rd rs1 rs2) s = .next (s.wrote 4 rd (sext32I x
        (if sgn32 b = 0 then sgn32 a
          else if sgn32 a = -2 ^ 31 ∧ sgn32 b = -1 then 0
          else sgn32 a - sgn32 b * (sgn32 a).tdiv (sgn32 b))))
    ∧ exec (.remuw rd rs1 rs2) s =
        .next (s.wrote 4 rd (sext32I x (if uns32 b = 0 then uns32 a else uns32 a % uns32 b)))

/-- The compressed forms with an immediate operand; the pc advances by 2. -/
def Obligations.CompressedImmediateResults : Prop :=
  ∀ (s : State) (rd : Reg) (rd' : CReg) (imm : BitVec 6) (uimm : BitVec 8),
    let x := s.params.xlen
    exec (.cAddi4spn rd' uimm) s = .next (s.wrote 2 (CReg.reg rd') (truncI x (uns x (s.reg 2#5) + 4 * uimm.toNat)))
    ∧ exec (.cNop imm) s = .next (s.advance 2)
    ∧ exec (.cAddi rd imm) s = .next (s.wrote 2 rd (truncI x (uns x (s.reg rd) + imm.toInt)))
    ∧ exec (.cAddiw rd imm) s = .next (s.wrote 2 rd (sext32I x (uns32 (s.reg rd) + imm.toInt)))
    ∧ exec (.cLi rd imm) s = .next (s.wrote 2 rd (truncI x imm.toInt))
    ∧ exec (.cAddi16sp imm) s = .next (s.wrote 2 2#5 (truncI x (uns x (s.reg 2#5) + 16 * imm.toInt)))
    ∧ exec (.cLui rd imm) s = .next (s.wrote 2 rd (truncI x (4096 * imm.toInt)))
    ∧ exec (.cAndi rd' imm) s = .next (s.wrote 2 (CReg.reg rd') (s.reg (CReg.reg rd') &&& truncI x imm.toInt))
    ∧ (imm.toNat < x.bits →
        exec (.cSlli rd imm) s = .next (s.wrote 2 rd (truncI x (uns x (s.reg rd) * 2 ^ imm.toNat)))
        ∧ exec (.cSrli rd' imm) s =
            .next (s.wrote 2 (CReg.reg rd') (truncI x (uns x (s.reg (CReg.reg rd')) / 2 ^ imm.toNat)))
        ∧ exec (.cSrai rd' imm) s =
            .next (s.wrote 2 (CReg.reg rd') (truncI x (sgn x (s.reg (CReg.reg rd')) / 2 ^ imm.toNat))))

/-- The compressed register forms; the 3-bit fields name x8 to x15. -/
def Obligations.CompressedRegisterResults : Prop :=
  (∀ (s : State) (rd rs2 : Reg),
    let x := s.params.xlen
    exec (.cMv rd rs2) s = .next (s.wrote 2 rd (s.reg rs2))
    ∧ exec (.cAdd rd rs2) s = .next (s.wrote 2 rd (truncI x (uns x (s.reg rd) + uns x (s.reg rs2)))))
  ∧ (∀ (s : State) (rd rs2 : CReg),
    let x := s.params.xlen
    let a := s.reg (CReg.reg rd)
    let b := s.reg (CReg.reg rs2)
    (CReg.reg rd).toNat = 8 + rd.toNat
    ∧ exec (.cSub rd rs2) s = .next (s.wrote 2 (CReg.reg rd) (truncI x (uns x a - uns x b)))
    ∧ exec (.cXor rd rs2) s = .next (s.wrote 2 (CReg.reg rd) (a ^^^ b))
    ∧ exec (.cOr rd rs2) s = .next (s.wrote 2 (CReg.reg rd) (a ||| b))
    ∧ exec (.cAnd rd rs2) s = .next (s.wrote 2 (CReg.reg rd) (a &&& b))
    ∧ exec (.cSubw rd rs2) s = .next (s.wrote 2 (CReg.reg rd) (sext32I x (uns32 a - uns32 b)))
    ∧ exec (.cAddw rd rs2) s = .next (s.wrote 2 (CReg.reg rd) (sext32I x (uns32 a + uns32 b))))

/-- The frame of every computational instruction: `x0` reads 0, only the destination register and the pc may change, and
with `x0` as the destination the pc alone changes. -/
def Obligations.ComputeFrame : Prop :=
  ∀ (i : Instr) (s t : State), i.shape = .compute ∨ i.shape = .idle → exec i s = .next t →
    (Trapped s t ∧ i = .wfi) ∨
    ((∀ r : Reg, r ≠ i.dest → t.reg r = s.reg r) ∧ t.reg 0#5 = 0#64
      ∧ t.pc = s.npc (encode i).ilen ∧ (i.dest = 0#5 → t = s.advance (encode i).ilen)
      ∧ t.csr = s.csr ∧ t.priv = s.priv ∧ t.resv = s.resv ∧ t.haltRequested = s.haltRequested ∧ t.tlb = s.tlb
      ∧ t.params = s.params ∧ ∀ a : Nat, t.mem.read a = s.mem.read a)

/-! ### Control transfer -/

/-- The jumps: link, target and halt check, whenever the target is aligned. -/
def Obligations.JumpResults : Prop :=
  (∀ (s : State) (rd : Reg) (imm : BitVec 20) (t : Word),
    t = truncI s.params.xlen (uns s.params.xlen s.pc + 2 * imm.toInt) → s.goodTarget t →
    exec (.jal rd imm) s = .next (s.jumped 4 rd t))
  ∧ (∀ (s : State) (rd rs1 : Reg) (imm : BitVec 12) (t : Word),
    t = truncI s.params.xlen ((uns s.params.xlen (s.reg rs1) + imm.toInt) / 2 * 2) → s.goodTarget t →
    exec (.jalr rd rs1 imm) s = .next (s.jumped 4 rd t))
  ∧ (∀ (s : State) (imm : BitVec 11) (t : Word),
    t = truncI s.params.xlen (uns s.params.xlen s.pc + 2 * imm.toInt) → s.goodTarget t →
    exec (.cJ imm) s = .next (s.jumped 2 0#5 t) ∧ exec (.cJal imm) s = .next (s.jumped 2 1#5 t))
  ∧ (∀ (s : State) (rs1 : Reg) (t : Word),
    t = truncI s.params.xlen (uns s.params.xlen (s.reg rs1) / 2 * 2) → s.goodTarget t →
    exec (.cJr rs1) s = .next (s.jumped 2 0#5 t) ∧ exec (.cJalr rs1) s = .next (s.jumped 2 1#5 t))

/-- The branches: the condition on signed or unsigned integers, the target when taken, the next instruction when not. -/
def Obligations.BranchResults : Prop :=
  (∀ (s : State) (rs1 rs2 : Reg) (imm : BitVec 12) (t : Word),
    t = truncI s.params.xlen (uns s.params.xlen s.pc + 2 * imm.toInt) → s.goodTarget t →
    let x := s.params.xlen
    let a := s.reg rs1
    let b := s.reg rs2
    exec (.beq rs1 rs2 imm) s = .next (if uns x a = uns x b then s.setPc t else s.advance 4)
    ∧ exec (.bne rs1 rs2 imm) s = .next (if uns x a ≠ uns x b then s.setPc t else s.advance 4)
    ∧ exec (.blt rs1 rs2 imm) s = .next (if sgn x a < sgn x b then s.setPc t else s.advance 4)
    ∧ exec (.bge rs1 rs2 imm) s = .next (if sgn x b ≤ sgn x a then s.setPc t else s.advance 4)
    ∧ exec (.bltu rs1 rs2 imm) s = .next (if uns x a < uns x b then s.setPc t else s.advance 4)
    ∧ exec (.bgeu rs1 rs2 imm) s = .next (if uns x b ≤ uns x a then s.setPc t else s.advance 4))
  ∧ (∀ (s : State) (rs1 : CReg) (imm : BitVec 8) (t : Word),
    t = truncI s.params.xlen (uns s.params.xlen s.pc + 2 * imm.toInt) → s.goodTarget t →
    let a := uns s.params.xlen (s.reg (CReg.reg rs1))
    exec (.cBeqz rs1 imm) s = .next (if a = 0 then s.setPc t else s.advance 2)
    ∧ exec (.cBnez rs1 imm) s = .next (if a ≠ 0 then s.setPc t else s.advance 2))

/-- Without the C extension a jump or a taken branch to a target with bit 1 set raises InstructionAddressMisaligned with
the target, and a branch that is not taken never checks. -/
def Obligations.MisalignedTargetTraps : Prop :=
  (∀ (s : State) (rd : Reg) (imm : BitVec 20) (t : Word), s.params.cEnabled = false →
    t = truncI s.params.xlen (uns s.params.xlen s.pc + 2 * imm.toInt) → t.getLsbD 1 = true →
    exec (.jal rd imm) s = .next (s.excState .instructionAddressMisaligned t))
  ∧ (∀ (s : State) (rd rs1 : Reg) (imm : BitVec 12) (t : Word), s.params.cEnabled = false →
    t = truncI s.params.xlen ((uns s.params.xlen (s.reg rs1) + imm.toInt) / 2 * 2) → t.getLsbD 1 = true →
    exec (.jalr rd rs1 imm) s = .next (s.excState .instructionAddressMisaligned t))
  ∧ (∀ (s : State) (rs1 rs2 : Reg) (imm : BitVec 12) (t : Word), s.params.cEnabled = false →
    t = truncI s.params.xlen (uns s.params.xlen s.pc + 2 * imm.toInt) → t.getLsbD 1 = true →
    let x := s.params.xlen
    let a := s.reg rs1
    let b := s.reg rs2
    let bad := s.excState .instructionAddressMisaligned t
    exec (.beq rs1 rs2 imm) s = .next (if uns x a = uns x b then bad else s.advance 4)
    ∧ exec (.bne rs1 rs2 imm) s = .next (if uns x a ≠ uns x b then bad else s.advance 4)
    ∧ exec (.blt rs1 rs2 imm) s = .next (if sgn x a < sgn x b then bad else s.advance 4)
    ∧ exec (.bge rs1 rs2 imm) s = .next (if sgn x b ≤ sgn x a then bad else s.advance 4)
    ∧ exec (.bltu rs1 rs2 imm) s = .next (if uns x a < uns x b then bad else s.advance 4)
    ∧ exec (.bgeu rs1 rs2 imm) s = .next (if uns x b ≤ uns x a then bad else s.advance 4))

/-- The frame of the jumps and branches: only `rd` (none for a branch), the pc and, for a jump, the halt request. -/
def Obligations.ControlFrame : Prop :=
  ∀ (i : Instr) (s t : State), i.shape = .jump ∨ i.shape = .branch → exec i s = .next t →
    Trapped s t ∨
    ((∀ r : Reg, r ≠ i.dest → t.reg r = s.reg r)
      ∧ t.csr = s.csr ∧ t.priv = s.priv ∧ t.resv = s.resv ∧ t.tlb = s.tlb ∧ t.params = s.params
      ∧ (i.shape = .branch → t.haltRequested = s.haltRequested)
      ∧ ∀ a : Nat, t.mem.read a = s.mem.read a)

/-! ### Memory -/

/-- The loads: the little-endian value of the bytes, sign- or zero-extended. -/
def Obligations.LoadResults : Prop :=
  (∀ (s : State) (rd rs1 : Reg) (imm : BitVec 12) (va : Word),
    va = truncI s.params.xlen (uns s.params.xlen (s.reg rs1) + imm.toInt) →
    LoadsAs (.lb rd rs1 imm) s 4 1 rd va (fun v => (BitVec.ofNat 8 v).toInt)
    ∧ LoadsAs (.lh rd rs1 imm) s 4 2 rd va (fun v => (BitVec.ofNat 16 v).toInt)
    ∧ LoadsAs (.lw rd rs1 imm) s 4 4 rd va (fun v => (BitVec.ofNat 32 v).toInt)
    ∧ LoadsAs (.ld rd rs1 imm) s 4 8 rd va (fun v => (v : Int))
    ∧ LoadsAs (.lbu rd rs1 imm) s 4 1 rd va (fun v => (v : Int))
    ∧ LoadsAs (.lhu rd rs1 imm) s 4 2 rd va (fun v => (v : Int))
    ∧ LoadsAs (.lwu rd rs1 imm) s 4 4 rd va (fun v => (v : Int)))
  ∧ (∀ (s : State) (rd rs1 : CReg) (uimm : BitVec 5),
    let a := uns s.params.xlen (s.reg (CReg.reg rs1))
    LoadsAs (.cLw rd rs1 uimm) s 2 4 (CReg.reg rd) (truncI s.params.xlen (a + 4 * uimm.toNat))
      (fun v => (BitVec.ofNat 32 v).toInt)
    ∧ LoadsAs (.cLd rd rs1 uimm) s 2 8 (CReg.reg rd) (truncI s.params.xlen (a + 8 * uimm.toNat)) (fun v => (v : Int)))
  ∧ (∀ (s : State) (rd : Reg) (uimm : BitVec 6),
    let a := uns s.params.xlen (s.reg 2#5)
    LoadsAs (.cLwsp rd uimm) s 2 4 rd (truncI s.params.xlen (a + 4 * uimm.toNat)) (fun v => (BitVec.ofNat 32 v).toInt)
    ∧ LoadsAs (.cLdsp rd uimm) s 2 8 rd (truncI s.params.xlen (a + 8 * uimm.toNat)) (fun v => (v : Int)))

/-- The stores: the low bytes of `x[rs2]`, the least significant first; the reservation is cleared. -/
def Obligations.StoreResults : Prop :=
  (∀ (s : State) (rs1 rs2 : Reg) (imm : BitVec 12) (va : Word),
    va = truncI s.params.xlen (uns s.params.xlen (s.reg rs1) + imm.toInt) →
    StoresAs (.sb rs1 rs2 imm) s 4 1 va (s.reg rs2) ∧ StoresAs (.sh rs1 rs2 imm) s 4 2 va (s.reg rs2)
    ∧ StoresAs (.sw rs1 rs2 imm) s 4 4 va (s.reg rs2) ∧ StoresAs (.sd rs1 rs2 imm) s 4 8 va (s.reg rs2))
  ∧ (∀ (s : State) (rs1 rs2 : CReg) (uimm : BitVec 5),
    let a := uns s.params.xlen (s.reg (CReg.reg rs1))
    StoresAs (.cSw rs1 rs2 uimm) s 2 4 (truncI s.params.xlen (a + 4 * uimm.toNat)) (s.reg (CReg.reg rs2))
    ∧ StoresAs (.cSd rs1 rs2 uimm) s 2 8 (truncI s.params.xlen (a + 8 * uimm.toNat)) (s.reg (CReg.reg rs2)))
  ∧ (∀ (s : State) (rs2 : Reg) (uimm : BitVec 6),
    let a := uns s.params.xlen (s.reg 2#5)
    StoresAs (.cSwsp rs2 uimm) s 2 4 (truncI s.params.xlen (a + 4 * uimm.toNat)) (s.reg rs2)
    ∧ StoresAs (.cSdsp rs2 uimm) s 2 8 (truncI s.params.xlen (a + 8 * uimm.toNat)) (s.reg rs2))

/-- When an access traps, with the address of its first byte: a misaligned load or store under STRICT_ALIGN; a misaligned
LR, SC or AMO always; a failed access of any of them, after which nothing but insertions into the TLB and the trap entry
has changed. -/
def Obligations.AccessTraps : Prop :=
  (∀ (i : Instr) (s : State) (va : Word) (n : Nat), i.shape = .load → i.dataAccess s = some (va, n, .load) →
    s.params.strictAlign = true → va.toNat % n ≠ 0 → exec i s = .next (s.excState .loadAddressMisaligned va))
  ∧ (∀ (i : Instr) (s : State) (va : Word) (n : Nat), i.shape = .store → i.dataAccess s = some (va, n, .store) →
    s.params.strictAlign = true → va.toNat % n ≠ 0 → exec i s = .next (s.excState .storeAddressMisaligned va))
  ∧ (∀ (i : Instr) (s : State) (va : Word) (n : Nat), i.shape = .lr → i.dataAccess s = some (va, n, .load) →
    va.toNat % n ≠ 0 → exec i s = .next (s.excState .loadAddressMisaligned va))
  ∧ (∀ (i : Instr) (s : State) (va : Word) (n : Nat), i.shape = .amo → i.dataAccess s = some (va, n, .store) →
    va.toNat % n ≠ 0 → exec i s = .next (s.excState .storeAddressMisaligned va))
  ∧ (∀ (s : State) (aq rl : Bool) (rd rs1 rs2 : Reg),
    ((s.reg rs1).toNat % 4 ≠ 0 →
      exec (.scW aq rl rd rs1 rs2) s = .next (s.excState .storeAddressMisaligned (s.reg rs1)))
    ∧ ((s.reg rs1).toNat % 8 ≠ 0 →
      exec (.scD aq rl rd rs1 rs2) s = .next (s.excState .storeAddressMisaligned (s.reg rs1))))
  ∧ (∀ (i : Instr) (s : State) (va : Word) (n : Nat) (it : Intent) (e : Exc), i.dataAccess s = some (va, n, it) →
    (va.toNat % n = 0 ∨ (s.params.strictAlign = false ∧ (i.shape = .load ∨ i.shape = .store))) →
    s.access va n it = .error e →
    exec i s = .next ((s.afterAccess va n it).excState e va) ∧ Tlb.OnlyFills s.params s.tlb (s.afterAccess va n it).tlb)

/-- The frame of every instruction that accesses memory, and for EVERY instruction: no byte of memory changes but those at
the physical addresses of its store. -/
def Obligations.MemoryFrame : Prop :=
  (∀ (i : Instr) (s t : State),
    i.shape = .load ∨ i.shape = .store ∨ i.shape = .lr ∨ i.shape = .sc ∨ i.shape = .amo → exec i s = .next t →
    Trapped s t ∨
    ((∀ r : Reg, r ≠ i.dest → t.reg r = s.reg r) ∧ t.pc = s.npc (encode i).ilen
      ∧ t.csr = s.csr ∧ t.priv = s.priv ∧ t.haltRequested = s.haltRequested ∧ t.params = s.params))
  ∧ (∀ (i : Instr) (s t : State), s.mem.wf → exec i s = .next t → ∀ a : Nat,
    (∀ (va : Word) (n : Nat) (pas : List Nat), i.dataAccess s = some (va, n, .store) →
      s.access va n .store = .ok pas → a ∉ pas) → t.mem.read a = s.mem.read a)

/-! ### Atomics -/

/-- LR sets the reservation and loads; SC stores and writes 0 when the reservation is for its address and size, and
otherwise writes 1 without an access; the reservation is then gone. -/
def Obligations.LrScResults : Prop :=
  ∀ (s : State) (aq rl : Bool) (rd rs1 rs2 : Reg),
    let x := s.params.xlen
    let va := s.reg rs1
    (va.toNat % 4 = 0 → ∀ pas, s.access va 4 .load = .ok pas → exec (.lrW aq rl rd rs1) s =
      .next ({ s.afterAccess va 4 .load with resv := some { addr := va, size := .word } }.wrote 4 rd
        (sext32I x (leNat s.mem pas))))
    ∧ (va.toNat % 8 = 0 → ∀ pas, s.access va 8 .load = .ok pas → exec (.lrD aq rl rd rs1) s =
      .next ({ s.afterAccess va 8 .load with resv := some { addr := va, size := .double } }.wrote 4 rd
        (truncI x (leNat s.mem pas))))
    ∧ (va.toNat % 4 = 0 → s.resv = some { addr := va, size := .word } → ∀ pas, s.access va 4 .store = .ok pas →
      exec (.scW aq rl rd rs1 rs2) s =
        .next ((((s.afterAccess va 4 .store).storeAt pas (s.reg rs2)).setReg rd 0#64).clearResv.advance 4))
    ∧ (va.toNat % 8 = 0 → s.resv = some { addr := va, size := .double } → ∀ pas, s.access va 8 .store = .ok pas →
      exec (.scD aq rl rd rs1 rs2) s =
        .next ((((s.afterAccess va 8 .store).storeAt pas (s.reg rs2)).setReg rd 0#64).clearResv.advance 4))
    ∧ (va.toNat % 4 = 0 → s.resv ≠ some { addr := va, size := .word } →
      exec (.scW aq rl rd rs1 rs2) s = .next ((s.setReg rd 1#64).clearResv.advance 4))
    ∧ (va.toNat % 8 = 0 → s.resv ≠ some { addr := va, size := .double } →
      exec (.scD aq rl rd rs1 rs2) s = .next ((s.setReg rd 1#64).clearResv.advance 4))

/-- The word AMOs: the old word, sign-extended, in `rd`; the operation at 32 bits in memory. -/
def Obligations.AmoWordResults : Prop :=
  ∀ (s : State) (aq rl : Bool) (rd rs1 rs2 : Reg),
    let va := s.reg rs1
    let src : BitVec 32 := (s.reg rs2).setWidth 32
    let w : Nat → BitVec 32 := BitVec.ofNat 32
    let old : Nat → Int := fun v => (w v).toInt
    AmoAs (.amoswapW aq rl rd rs1 rs2) s 4 rd va old (fun _ => src.toInt)
    ∧ AmoAs (.amoaddW aq rl rd rs1 rs2) s 4 rd va old (fun v => (v : Int) + src.toInt)
    ∧ AmoAs (.amoxorW aq rl rd rs1 rs2) s 4 rd va old (fun v => (w v ^^^ src).toInt)
    ∧ AmoAs (.amoandW aq rl rd rs1 rs2) s 4 rd va old (fun v => (w v &&& src).toInt)
    ∧ AmoAs (.amoorW aq rl rd rs1 rs2) s 4 rd va old (fun v => (w v ||| src).toInt)
    ∧ AmoAs (.amominW aq rl rd rs1 rs2) s 4 rd va old (fun v => min (w v).toInt src.toInt)
    ∧ AmoAs (.amomaxW aq rl rd rs1 rs2) s 4 rd va old (fun v => max (w v).toInt src.toInt)
    ∧ AmoAs (.amominuW aq rl rd rs1 rs2) s 4 rd va old (fun v => min (v : Int) src.toNat)
    ∧ AmoAs (.amomaxuW aq rl rd rs1 rs2) s 4 rd va old (fun v => max (v : Int) src.toNat)

/-- The doubleword AMOs. -/
def Obligations.AmoDoubleResults : Prop :=
  ∀ (s : State) (aq rl : Bool) (rd rs1 rs2 : Reg),
    let va := s.reg rs1
    let src : BitVec 64 := s.reg rs2
    let w : Nat → BitVec 64 := BitVec.ofNat 64
    let old : Nat → Int := fun v => (v : Int)
    AmoAs (.amoswapD aq rl rd rs1 rs2) s 8 rd va old (fun _ => src.toInt)
    ∧ AmoAs (.amoaddD aq rl rd rs1 rs2) s 8 rd va old (fun v => (v : Int) + src.toInt)
    ∧ AmoAs (.amoxorD aq rl rd rs1 rs2) s 8 rd va old (fun v => (w v ^^^ src).toInt)
    ∧ AmoAs (.amoandD aq rl rd rs1 rs2) s 8 rd va old (fun v => (w v &&& src).toInt)
    ∧ AmoAs (.amoorD aq rl rd rs1 rs2) s 8 rd va old (fun v => (w v ||| src).toInt)
    ∧ AmoAs (.amominD aq rl rd rs1 rs2) s 8 rd va old (fun v => min (w v).toInt src.toInt)
    ∧ AmoAs (.amomaxD aq rl rd rs1 rs2) s 8 rd va old (fun v => max (w v).toInt src.toInt)
    ∧ AmoAs (.amominuD aq rl rd rs1 rs2) s 8 rd va old (fun v => min (v : Int) src.toNat)
    ∧ AmoAs (.amomaxuD aq rl rd rs1 rs2) s 8 rd va old (fun v => max (v : Int) src.toNat)

/-- After an LR.W, an SC.W to the same address in any later state that still has the reservation stores and succeeds, and a
second SC.W after it fails. -/
def Obligations.LrScForwardProgress : Prop :=
  ∀ (s t u : State) (aq rl aq' rl' : Bool) (rd rs1 rd' rs1' rs2 : Reg) (pas : List Nat),
    exec (.lrW aq rl rd rs1) s = .next t → (s.reg rs1).toNat % 4 = 0 →
    (∃ qs, s.access (s.reg rs1) 4 .load = .ok qs) →
    u.resv = t.resv → u.reg rs1' = s.reg rs1 → u.access (u.reg rs1') 4 .store = .ok pas →
    ∃ w, exec (.scW aq' rl' rd' rs1' rs2) u = .next w ∧ w.reg rd' = 0#64
      ∧ w.mem = u.mem.writeLE pas (u.reg rs2) ∧ w.resv = none
      ∧ (w.reg rs1' = s.reg rs1 → rd' ≠ 0#5 →
        ∃ z, exec (.scW aq' rl' rd' rs1' rs2) w = .next z ∧ z.reg rd' = 1#64 ∧ z.mem = w.mem)

/-- What sets, keeps and clears the reservation, over all instructions. -/
def Obligations.ReservationRule : Prop :=
  (∀ (s t : State), Trapped s t → t.resv = none)
  ∧ (∀ (i : Instr) (s t : State), exec i s = .next t →
    match i.shape with
    | .store | .sc | .amo | .ret | .call | .noFpu => t.resv = none
    | .compute | .jump | .branch | .load | .csr | .idle | .tlbFence => t.resv = s.resv ∨ Trapped s t
    | .lr => Trapped s t ∨ ∃ va n, i.dataAccess s = some (va, n, .load) ∧
        ∃ g : Granule, g.bytes = n ∧ t.resv = some { addr := va, size := g })

/-! ### CSRs -/

/-- A CSR instruction that is not legal raises IllegalInstruction with its own bits, in each of the six forms. -/
def Obligations.CsrAccessCheck : Prop :=
  ∀ (s : State) (rd rs1 : Reg) (uimm : BitVec 5) (csr : CsrIndex),
    let bits : Nat → Nat → Word := fun f3 src =>
      BitVec.ofNat 64 (csr.toNat * 2 ^ 20 + src * 2 ^ 15 + f3 * 2 ^ 12 + rd.toNat * 2 ^ 7 + 0x73)
    ((∀ c, ¬ CsrLegal s csr True c) →
      exec (.csrrw rd rs1 csr) s = .next (s.excState .illegalInstruction (bits 1 rs1.toNat))
      ∧ exec (.csrrwi rd uimm csr) s = .next (s.excState .illegalInstruction (bits 5 uimm.toNat)))
    ∧ ((∀ c, ¬ CsrLegal s csr (rs1 ≠ 0#5) c) →
      exec (.csrrs rd rs1 csr) s = .next (s.excState .illegalInstruction (bits 2 rs1.toNat))
      ∧ exec (.csrrc rd rs1 csr) s = .next (s.excState .illegalInstruction (bits 3 rs1.toNat)))
    ∧ ((∀ c, ¬ CsrLegal s csr (uimm ≠ 0#5) c) →
      exec (.csrrsi rd uimm csr) s = .next (s.excState .illegalInstruction (bits 6 uimm.toNat))
      ∧ exec (.csrrci rd uimm csr) s = .next (s.excState .illegalInstruction (bits 7 uimm.toNat)))

/-- A legal CSR instruction reads the view, writes the new value (or nothing when its source field is 0), and puts the
value read in `rd`. -/
def Obligations.CsrInstrResults : Prop :=
  ∀ (s : State) (rd rs1 : Reg) (uimm : BitVec 5) (csr : CsrIndex) (c : Csr),
    let old := s.readCsr c
    let u : Word := uimm.setWidth 64
    let done : State → Host.Outcome State Fault Refusal := fun t => .next ((t.setReg rd old).advance 4)
    (CsrLegal s csr True c →
      exec (.csrrw rd rs1 csr) s = done (s.writeCsr c (s.reg rs1))
      ∧ exec (.csrrwi rd uimm csr) s = done (s.writeCsr c u))
    ∧ (CsrLegal s csr (rs1 ≠ 0#5) c →
      exec (.csrrs rd rs1 csr) s = done (if rs1 = 0#5 then s else s.writeCsr c (old ||| s.reg rs1))
      ∧ exec (.csrrc rd rs1 csr) s = done (if rs1 = 0#5 then s else s.writeCsr c (old &&& ~~~s.reg rs1)))
    ∧ (CsrLegal s csr (uimm ≠ 0#5) c →
      exec (.csrrsi rd uimm csr) s = done (if uimm = 0#5 then s else s.writeCsr c (old ||| u))
      ∧ exec (.csrrci rd uimm csr) s = done (if uimm = 0#5 then s else s.writeCsr c (old &&& ~~~u)))

/-- What a CSR reads after a write of `v`: the write masks, the legalisers and the fixed bits. -/
def Obligations.CsrWriteThenRead : Prop :=
  ∀ (s : State) (v : Word), CsrInv s → Fits s.params.xlen v →
    let fixed : Word := match s.params.xlen with | .rv32 => 0#64 | .rv64 => 0x0000000A00000000#64
    let after : Csr → Word := fun c => (s.writeCsr c v).readCsr c
    (v.extractLsb' 11 2 ≠ 2#2 → after .mstatus = fixed ||| (v &&& 0xE19AA#64))
    ∧ (v.extractLsb' 11 2 = 2#2 →
      after .mstatus = fixed ||| (v &&& 0xE01AA#64) ||| (s.readCsr .mstatus &&& 0x1800#64))
    ∧ after .medeleg = v &&& 0xB3FF#64 ∧ after .mideleg = v &&& 0x222#64
    ∧ after .mie = v &&& 0xAAA#64 ∧ after .mip = v &&& 0x222#64
    ∧ (v.toNat % 4 < 2 → after .mtvec = v ∧ after .stvec = v)
    ∧ (2 ≤ v.toNat % 4 → after .mtvec = (v &&& ~~~3#64) ||| (s.csr.mtvec &&& 3#64)
      ∧ after .stvec = (v &&& ~~~3#64) ||| (s.csr.stvec &&& 3#64))
    ∧ after .mepc = v &&& (if s.params.cEnabled = true then ~~~1#64 else ~~~3#64)
    ∧ after .sepc = v &&& (if s.params.cEnabled = true then ~~~1#64 else ~~~3#64)
    ∧ after .mcause = v ∧ after .scause = v ∧ after .mtval = v ∧ after .stval = v
    ∧ after .mscratch = v ∧ after .sscratch = v
    ∧ (s.params.xlen = .rv32 → after .satp = v)
    ∧ (s.params.xlen = .rv64 →
      after .satp = if v.toNat / 2 ^ 60 = 0 ∨ v.toNat / 2 ^ 60 = 8 then v else s.csr.satp)

/-- The views: `sstatus` of `mstatus`, `sie` of `mie`, `sip` of `mip`, what they read and what a write through them
changes; the fixed registers. -/
def Obligations.CsrViews : Prop :=
  ∀ (s : State) (v : Word), CsrInv s → Fits s.params.xlen v →
    s.readCsr .sstatus = s.readCsr .mstatus
      &&& (match s.params.xlen with | .rv32 => 0x800DE762#64 | .rv64 => 0x80000003000DE762#64)
    ∧ s.readCsr .sie = s.csr.mie &&& s.csr.mideleg ∧ s.readCsr .sip = s.csr.mip &&& s.csr.mideleg
    ∧ (s.writeCsr .sstatus v).readCsr .mstatus = (s.readCsr .mstatus &&& ~~~0xC0122#64) ||| (v &&& 0xC0122#64)
    ∧ (s.writeCsr .sie v).csr.mie = (s.csr.mie &&& ~~~s.csr.mideleg) ||| (v &&& s.csr.mideleg)
    ∧ (s.writeCsr .sip v).csr.mip = (if s.csr.mideleg.getLsbD 1 = true then
        (s.csr.mip &&& ~~~2#64) ||| (v &&& 2#64) else s.csr.mip)
    ∧ s.readCsr .misa = (match s.params.xlen with | .rv32 => 0x40141101#64 | .rv64 => 0x8000000000141101#64)
        + (if s.params.cEnabled = true then 4#64 else 0#64)
    ∧ (s.writeCsr .misa v).csr = s.csr
    ∧ s.readCsr .mvendorid = 0#64 ∧ s.readCsr .marchid = 0#64 ∧ s.readCsr .mimpid = 0#64 ∧ s.readCsr .mhartid = 0#64

/-- The frame of the CSR instructions, of which the CSR that the instruction's index names is the only one written, and of
one CSR write: no other register that has its own storage reads differently. -/
def Obligations.CsrFrame : Prop :=
  (∀ (i : Instr) (s t : State), i.shape = .csr → exec i s = .next t →
    Trapped s t ∨
    ((∀ r : Reg, r ≠ i.dest → t.reg r = s.reg r) ∧ t.pc = s.npc 4
      ∧ t.priv = s.priv ∧ t.resv = s.resv ∧ t.haltRequested = s.haltRequested ∧ t.params = s.params
      ∧ (∀ a : Nat, t.mem.read a = s.mem.read a)
      ∧ ((t.csr = s.csr ∧ t.tlb = s.tlb) ∨ ∃ (csr : CsrIndex) (c : Csr) (v : Word),
        CsrForm i csr ∧ (csr.toNat, c) ∈ csrTable
          ∧ t.csr = (s.writeCsr c v).csr ∧ t.tlb = (s.writeCsr c v).tlb)))
  ∧ (∀ (s : State) (c d : Csr) (v : Word), c.home ≠ d.home → ¬ (c = .mideleg ∧ (d = .sie ∨ d = .sip)) →
    (s.writeCsr c v).readCsr d = s.readCsr d)
  ∧ (∀ (s : State) (c : Csr) (v : Word), c ≠ .satp → (s.writeCsr c v).tlb = s.tlb)

/-- The compressed floating-point forms raise IllegalInstruction with their parcel; no memory is accessed. -/
def Obligations.CompressedFloatIsIllegal : Prop :=
  (∀ (s : State) (i : Instr), i.shape = .noFpu →
    exec i s = .next (s.excState .illegalInstruction (encode i).bits) ∧ i.dataAccess s = none ∧ (encode i).ilen = 2)
  ∧ (Instr.shape (.cFld 1#3 2#3 1#5) = .noFpu ∧ (encode (.cFld 1#3 2#3 1#5)).bits = 0x2504#64)

/-! ### Memory as a whole -/

/-- A store and a load of the same bytes, in two steps of an untranslated hart: the load gives what was stored. -/
def Obligations.StoreThenLoad : Prop :=
  ∀ (s : State) (rd rs1 rs2 : Reg) (imm : BitVec 12), s.mem.wf → s.params.strictAlign = false →
    s.translating .load = false → s.translating .store = false → rd ≠ 0#5 →
    (∀ k, k < 8 → accessible s.params ((s.addr rs1 (imm12 imm)).toNat + k) = true) →
    (∃ t u, exec (.sb rs1 rs2 imm) s = .next t ∧ exec (.lbu rd rs1 imm) t = .next u
      ∧ u.reg rd = truncI s.params.xlen ((s.reg rs2).toNat % 2 ^ 8 : Nat))
    ∧ (∃ t u, exec (.sh rs1 rs2 imm) s = .next t ∧ exec (.lhu rd rs1 imm) t = .next u
      ∧ u.reg rd = truncI s.params.xlen ((s.reg rs2).toNat % 2 ^ 16 : Nat))
    ∧ (∃ t u, exec (.sw rs1 rs2 imm) s = .next t ∧ exec (.lw rd rs1 imm) t = .next u
      ∧ u.reg rd = sext32I s.params.xlen (s.reg rs2).toNat)
    ∧ (∃ t u, exec (.sd rs1 rs2 imm) s = .next t ∧ exec (.ld rd rs1 imm) t = .next u
      ∧ u.reg rd = truncI s.params.xlen (s.reg rs2).toNat)

/-- When an access is translated, what an untranslated one is, and which addresses exist. -/
def Obligations.UntranslatedAccess : Prop :=
  (∀ (s : State) (it : Intent), s.translating it = true ↔
    (match s.params.xlen with
      | .rv32 => s.csr.satp.toNat / 2 ^ 31 % 2 = 1
      | .rv64 => s.csr.satp.toNat / 2 ^ 60 ≠ 0)
    ∧ s.effPriv it ≠ .m)
  ∧ (∀ s : State, s.effPriv .fetch = s.priv
    ∧ (∀ it : Intent, it ≠ .fetch → s.effPriv it =
      if s.priv = .m ∧ s.csr.mstatus.mprv = true then s.csr.mstatus.mpp else s.priv))
  ∧ (∀ (p : Params) (pa : Nat), accessible p pa = true ↔
    pa < 2 ^ p.paBits ∧ ∀ r ∈ p.guarded, ¬ (r.1 ≤ pa ∧ pa < r.1 + r.2))
  ∧ (∀ (s : State) (va : Word) (n : Nat) (it : Intent), s.translating it = false →
    s.afterAccess va n it = s
    ∧ ((∀ k, k < n → accessible s.params (va.toNat + k) = true) →
      s.access va n it = .ok ((List.range n).map (va.toNat + ·)))
    ∧ ((∃ k, k < n ∧ accessible s.params (va.toNat + k) = false) →
      s.access va n it = .error (match it with
        | .fetch => .instructionAccessFault
        | .load => .loadAccessFault
        | .store => .storeAccessFault)))

/-- An allowed access, translated or not, has one accessible physical address for each byte, all different. -/
def Obligations.AccessGivesDistinctAddresses : Prop :=
  ∀ (s : State) (va : Word) (n : Nat) (it : Intent) (pas : List Nat), n ≤ 8 → s.access va n it = .ok pas →
    pas.length = n ∧ pas.Nodup ∧ ∀ a ∈ pas, accessible s.params a = true

/-! ### Translation -/

/-- The walk of the model ends exactly where the loop of the rule ends, for every table, level and outcome. -/
def Obligations.PageWalkFollowsTheRule : Prop :=
  ∀ (p : Params) (m : Memory) (va : Word) (i a : Nat) (r : WalkEnd), Walks p m va i a r ↔ walkEnd (walk p m va i a) = r

/-- A translation that misses the TLB: the canonical check, the walk, the permission, superpage and A/D checks, and the
composed address. -/
def Obligations.TranslationOnMiss : Prop :=
  ∀ (s : State) (t : Tlb) (va : Word) (it : Intent),
    let x := s.params.xlen
    let k := fun i : Nat => vpnBits x * i
    let canon : Prop := x = .rv64 → va.toNat / 2 ^ 38 = 0 ∨ va.toNat / 2 ^ 38 = 2 ^ 26 - 1
    (¬ canon → s.translate t va it = (t, .error .page))
    ∧ (canon → (∀ e ∈ t.entries it, e.hits x s.csr.satp va = false) → ∀ r,
      Walks s.params s.mem va (levels x - 1) (rootTable x s.csr.satp.toNat) r →
      match r with
      | .pageFault => s.translate t va it = (t, .error .page)
      | .accessFault => s.translate t va it = (t, .error .access)
      | .leaf pte i =>
        let ok : Prop := s.permitted it (decide (pte / 2 % 2 = 1)) (decide (pte / 4 % 2 = 1))
              (decide (pte / 8 % 2 = 1)) (decide (pte / 16 % 2 = 1)) = true
            ∧ entryPpn x pte % 2 ^ k i = 0 ∧ entryBit pte 6 ∧ (it = .store → entryBit pte 7)
        (ok → (s.translate t va it).2 =
          .ok (entryPpn x pte / 2 ^ k i * 2 ^ (12 + k i) + va.toNat % 2 ^ (12 + k i)))
        ∧ (¬ ok → s.translate t va it = (t, .error .page)))

/-- The permission check, for each intent at each effective privilege. -/
def Obligations.PermissionCheck : Prop :=
  ∀ (s : State) (r w x u : Bool),
    (s.permitted .fetch r w x u = true ↔
      x = true ∧ (s.priv = .u → u = true) ∧ (s.priv = .s → u = false))
    ∧ (s.permitted .load r w x u = true ↔
      (r = true ∨ (x = true ∧ s.csr.mstatus.mxr = true)) ∧ (s.effPriv .load = .u → u = true)
        ∧ (s.effPriv .load = .s → u = true → s.csr.mstatus.sum = true))
    ∧ (s.permitted .store r w x u = true ↔
      w = true ∧ (s.effPriv .store = .u → u = true) ∧ (s.effPriv .store = .s → u = true → s.csr.mstatus.sum = true))

/-- A successful translation is cached: the next translation of the same address gives the same physical address, whatever
has been written to memory, the page tables included. -/
def Obligations.TlbHitKeepsTranslation : Prop :=
  ∀ (s : State) (t t' : Tlb) (va : Word) (it : Intent) (pa : Nat) (m : Memory), 1 ≤ s.params.tlbK →
    (∀ e ∈ t.entries it, e.stamp ≤ t.clock) → s.translate t va it = (t', .ok pa) →
    (({ s with mem := m } : State).translate t' va it).2 = .ok pa

/-! ### Invariants and whole-machine rules -/

/-- Every step keeps the memory in canonical form and inside physical memory. -/
def Obligations.StepKeepsMemory : Prop :=
  ∀ s t : State, MemInv s → step s = .next t → MemInv t

/-- Every step keeps every register, the pc and every CSR within XLEN bits. -/
def Obligations.StepKeepsWidths : Prop :=
  ∀ s t : State, WidthInv s → step s = .next t → WidthInv t

/-- Every step keeps the pc and the saved pcs aligned and the vector modes legal. -/
def Obligations.StepKeepsAlignment : Prop :=
  ∀ s t : State, AlignInv s → step s = .next t → AlignInv t

/-- Every step keeps the read-only bits of the CSRs 0 and `satp` legal, the TLB within its bounds, and the parameters. -/
def Obligations.StepKeepsCsrsAndTlb : Prop :=
  ∀ s t : State, step s = .next t → t.params = s.params ∧ (CsrInv s → CsrInv t) ∧ (TlbInv s → TlbInv t)

/-- The state after reset: the values of the creation table, and every invariant.  The width and the pc of `State.reset`
are the model's choices (log entries 3 and 4); `mstatus` and `misa` are stated for both widths. -/
def Obligations.ResetState : Prop :=
  (∀ r : Reg, State.reset.reg r = 0#64)
  ∧ State.reset.priv = .m ∧ State.reset.resv = none ∧ State.reset.haltRequested = false
  ∧ (∀ it : Intent, State.reset.tlb.entries it = []) ∧ (∀ a : Nat, State.reset.mem.read a = 0#8)
  ∧ (∀ x : Xlen, (State.resetWith (Params.hardware x)).readCsr .mstatus =
      match x with | .rv32 => 0#64 | .rv64 => 0x0000000A00000000#64)
  ∧ (∀ x : Xlen, (State.resetWith (Params.hardware x)).readCsr .misa =
      match x with | .rv32 => 0x40141105#64 | .rv64 => 0x8000000000141105#64)
  ∧ (∀ c ∈ [Csr.medeleg, .mideleg, .mie, .mip, .mtvec, .stvec, .mepc, .sepc, .mcause, .scause, .mtval, .stval,
      .mscratch, .sscratch, .satp, .mvendorid, .marchid, .mimpid, .mhartid], State.reset.readCsr c = 0#64)
  ∧ (∀ p : Params, (State.resetWith p).priv = p.initialPriv) ∧ 1 ≤ State.reset.params.tlbK
  ∧ WidthInv State.reset ∧ AlignInv State.reset ∧ CsrInv State.reset ∧ TlbInv State.reset ∧ MemInv State.reset

/-- Every step, and every instruction in every state, has a next state: no trap ends the run. -/
def Obligations.EveryStepHasANextState : Prop :=
  (∀ s : State, Safe s) ∧ (∀ (i : Instr) (s : State), ∃ t, exec i s = .next t)

/-- Only a trap entry raises the mode and only MRET and SRET lower it. -/
def Obligations.ModeChangesOnlyByTrapOrReturn : Prop :=
  ∀ (i : Instr) (s t : State), exec i s = .next t →
    (Trapped s t ∧ Priv.rank s.priv ≤ Priv.rank t.priv) ∨ t.priv = s.priv
    ∨ (i = .mret ∧ s.priv = .m ∧ t.priv = s.csr.mstatus.mpp)
    ∨ (i = .sret ∧ s.priv ≠ .u ∧ t.priv = if s.csr.mstatus.spp = true then .s else .u)

/-- In U, an instruction either traps or leaves every CSR and the mode alone; in S, it either traps or leaves the machine
level's state alone: medeleg, mideleg, mtvec, mepc, mcause, mtval and mscratch, the MIE, MPIE, MPP and MPRV fields of
mstatus (SRET clears MPRV), and the bits of mie and mip that are not delegated. -/
def Obligations.LowerModesKeepMachineState : Prop :=
  ∀ (i : Instr) (s t : State), exec i s = .next t →
    (s.priv = .u → Trapped s t ∨ (t.csr = s.csr ∧ t.priv = .u))
    ∧ (s.priv = .s → Trapped s t ∨
      ((∀ c ∈ [Csr.medeleg, .mideleg, .mtvec, .mepc, .mcause, .mtval, .mscratch], t.readCsr c = s.readCsr c)
        ∧ t.csr.mstatus.mie = s.csr.mstatus.mie ∧ t.csr.mstatus.mpie = s.csr.mstatus.mpie
        ∧ t.csr.mstatus.mpp = s.csr.mstatus.mpp
        ∧ t.csr.mstatus.mprv = (if i = .sret then false else s.csr.mstatus.mprv)
        ∧ t.csr.mie &&& ~~~s.csr.mideleg = s.csr.mie &&& ~~~s.csr.mideleg
        ∧ t.csr.mip &&& ~~~s.csr.mideleg = s.csr.mip &&& ~~~s.csr.mideleg))

/-- Only a jump to 0 with `x1` = 0 and a trap entry request the halt. -/
def Obligations.HaltOnlyByJumpOrTrap : Prop :=
  ∀ (i : Instr) (s t : State), s.haltRequested = false → exec i s = .next t → t.haltRequested = true →
    (i.shape = .jump ∧ t.pc = 0#64 ∧ t.reg 1#5 = 0#64) ∨ Trapped s t

/-- A compressed instruction does what its base expansion does, with 2 for 4 in the next pc: the same state where the
expansion traps, jumps or takes its branch; everywhere else the expansion falls through to pc + 4, and the compressed
instruction gives that state with pc + 2. -/
def Obligations.CompressedActsAsItsExpansion : Prop :=
  ∀ (i j : Instr) (s t : State), i.expansion = some j → (∀ imm, i ≠ .cJal imm) → (∀ r, i ≠ .cJalr r) →
    exec j s = .next t →
    (exec i s = .next t ∧ (Trapped s t ∨ j.shape = .jump ∨ BranchTaken s j))
    ∨ (j.shape ≠ .jump ∧ ¬ BranchTaken s j ∧ t.pc = s.npc 4 ∧ exec i s = .next { t with pc := s.npc 2 })

end
end

