-- ==== Sys2Proof/Laws/Csr.lean ====
section
/-! SUPPORT. The CSR index table and the access check (R56, R490) in the terms of Safety.lean. -/

namespace Sys2Proof.Laws

open Sys2Proof Sys2Proof.Machine

/-- The first row of an index chain, or the rest of it. -/
theorem csrChain_cases {p : Prop} [Decidable p] {a c : Csr} {r : Option Csr}
    (h : (if p then some a else r) = some c) : (p ∧ a = c) ∨ r = some c := by
  by_cases hp : p
  · rw [if_pos hp] at h; cases h; exact .inl ⟨hp, rfl⟩
  · rw [if_neg hp] at h; exact .inr h

/-- An index that names a CSR is a row of the table (R56). -/
theorem ofIndex_table {i : CsrIndex} {c : Csr} (h : Csr.ofIndex i = some c) : (i.toNat, c) ∈ csrTable := by
  unfold Csr.ofIndex at h
  iterate 24 (rcases csrChain_cases h with ⟨rfl, rfl⟩ | h; · decide)
  cases h

/-- A row of the table names its CSR (R56). -/
theorem table_ofIndex {i : CsrIndex} {c : Csr} (h : (i.toNat, c) ∈ csrTable) : Csr.ofIndex i = some c := by
  simp only [csrTable, List.mem_cons, Prod.mk.injEq, List.not_mem_nil, or_false] at h
  have key : ∀ n : Nat, i.toNat = n → n < 4096 → i = BitVec.ofNat 12 n :=
    fun n hn hl => BitVec.eq_of_toNat_eq (by rw [hn, BitVec.toNat_ofNat, Nat.mod_eq_of_lt hl])
  iterate 23 (rcases h with ⟨h, rfl⟩ | h; · rw [key _ h (by norm_num)]; rfl)
  obtain ⟨h, rfl⟩ := h
  rw [key _ h (by norm_num)]; rfl

/-- The check of the model is the check of the rule (R490). -/
theorem csrCheck_iff {s : State} {i : CsrIndex} {w : Bool} {c : Csr} :
    s.csrCheck i w = some c ↔ CsrLegal s i (w = true) c := by
  have e1 : (i.extractLsb' 8 2).toNat = i.toNat / 256 % 4 := by
    simp [BitVec.extractLsb'_toNat, Nat.shiftRight_eq_div_pow]
  have e2 : (i.extractLsb' 10 2 = 3#2) ↔ i.toNat / 1024 = 3 := by
    rw [← BitVec.toNat_inj]; simp [BitVec.extractLsb'_toNat, Nat.shiftRight_eq_div_pow]
    have := i.isLt; omega
  unfold State.csrCheck CsrLegal
  rw [e1]
  constructor
  · intro h
    split at h
    · cases h
    · split at h
      · cases h
      · rename_i h1 h2
        refine ⟨ofIndex_table h, by omega, ?_⟩
        rintro ⟨a, b⟩
        exact h2 (by simp [a, e2.2 b])
  · rintro ⟨h1, h2, h3⟩
    rw [if_neg (by omega), if_neg ?_, table_ofIndex h1]
    intro h; simp at h; exact h3 ⟨h.1, e2.1 h.2⟩

/-- The mode bits of an index: 1 for the supervisor CSRs, 3 for the others (R56, R490). -/
theorem csrTable_rank {c : Csr} {n : Nat} (h : (n, c) ∈ csrTable) :
    n / 256 % 4 =
      if c ∈ [Csr.sstatus, .sie, .stvec, .sscratch, .sepc, .scause, .stval, .sip, .satp] then 1 else 3 := by
  have all : ∀ r ∈ csrTable, r.1 / 256 % 4 =
      if r.2 ∈ [Csr.sstatus, .sie, .stvec, .sscratch, .sepc, .scause, .stval, .sip, .satp] then 1 else 3 := by decide
  exact all _ h

end Sys2Proof.Laws
end

