-- ==== Sys2Proof/Laws/Encoding.lean ====
section
/-! SUPPORT. Every field of every encoding format read back (R223, R240), and every scattered immediate gathered and
scattered again (R223, R241). -/

namespace Sys2Proof

theorem toNat_app {n m : Nat} (x : BitVec n) (y : BitVec m) : (x ++ y).toNat = x.toNat * 2 ^ m + y.toNat := by
  rw [BitVec.toNat_append, Nat.shiftLeft_eq, Nat.mul_comm, Nat.two_pow_add_eq_or_of_lt y.isLt]

theorem toNat_ext {n : Nat} (x : BitVec n) (s k : Nat) : (x.extractLsb' s k).toNat = x.toNat / 2 ^ s % 2 ^ k := by
  simp [Nat.shiftRight_eq_div_pow]

theorem getLsbD_app {n m : Nat} (x : BitVec n) (y : BitVec m) (i : Nat) :
    (x ++ y).getLsbD i = if i < m then y.getLsbD i else x.getLsbD (i - m) := by
  rw [BitVec.getLsbD_append]

theorem getLsbD_ext {n : Nat} (x : BitVec n) (s k i : Nat) :
    (x.extractLsb' s k).getLsbD i = (decide (i < k) && x.getLsbD (s + i)) := by
  rw [BitVec.getLsbD_extractLsb']

theorem toNat_bool (b : Bool) : (BitVec.ofBool b).toNat = b.toNat := by cases b <;> rfl

/-! ### `rType` -/

theorem rType_toNat (f7 : BitVec 7) (rs2 : Reg) (rs1 : Reg) (f3 : BitVec 3) (rd : Reg) (op : BitVec 7) :
    (rType f7 rs2 rs1 f3 rd op).toNat = f7.toNat * 33554432 + rs2.toNat * 1048576 + rs1.toNat * 32768 + f3.toNat * 4096 + rd.toNat * 128 + op.toNat := by
  simp only [rType, toNat_app]; omega
@[simp] theorem rType_op (f7 : BitVec 7) (rs2 : Reg) (rs1 : Reg) (f3 : BitVec 3) (rd : Reg) (op : BitVec 7) :
    Field.op (rType f7 rs2 rs1 f3 rd op) = op := by
  have h0 := f7.isLt; have h1 := rs2.isLt; have h2 := rs1.isLt; have h3 := f3.isLt; have h4 := rd.isLt; have h5 := op.isLt
  apply BitVec.eq_of_toNat_eq; simp only [Field.op, toNat_ext, rType_toNat]; omega
@[simp] theorem rType_rd (f7 : BitVec 7) (rs2 : Reg) (rs1 : Reg) (f3 : BitVec 3) (rd : Reg) (op : BitVec 7) :
    Field.rd (rType f7 rs2 rs1 f3 rd op) = rd := by
  have h0 := f7.isLt; have h1 := rs2.isLt; have h2 := rs1.isLt; have h3 := f3.isLt; have h4 := rd.isLt; have h5 := op.isLt
  apply BitVec.eq_of_toNat_eq; simp only [Field.rd, toNat_ext, rType_toNat]; omega
@[simp] theorem rType_funct3 (f7 : BitVec 7) (rs2 : Reg) (rs1 : Reg) (f3 : BitVec 3) (rd : Reg) (op : BitVec 7) :
    Field.funct3 (rType f7 rs2 rs1 f3 rd op) = f3 := by
  have h0 := f7.isLt; have h1 := rs2.isLt; have h2 := rs1.isLt; have h3 := f3.isLt; have h4 := rd.isLt; have h5 := op.isLt
  apply BitVec.eq_of_toNat_eq; simp only [Field.funct3, toNat_ext, rType_toNat]; omega
@[simp] theorem rType_rs1 (f7 : BitVec 7) (rs2 : Reg) (rs1 : Reg) (f3 : BitVec 3) (rd : Reg) (op : BitVec 7) :
    Field.rs1 (rType f7 rs2 rs1 f3 rd op) = rs1 := by
  have h0 := f7.isLt; have h1 := rs2.isLt; have h2 := rs1.isLt; have h3 := f3.isLt; have h4 := rd.isLt; have h5 := op.isLt
  apply BitVec.eq_of_toNat_eq; simp only [Field.rs1, toNat_ext, rType_toNat]; omega
@[simp] theorem rType_rs2 (f7 : BitVec 7) (rs2 : Reg) (rs1 : Reg) (f3 : BitVec 3) (rd : Reg) (op : BitVec 7) :
    Field.rs2 (rType f7 rs2 rs1 f3 rd op) = rs2 := by
  have h0 := f7.isLt; have h1 := rs2.isLt; have h2 := rs1.isLt; have h3 := f3.isLt; have h4 := rd.isLt; have h5 := op.isLt
  apply BitVec.eq_of_toNat_eq; simp only [Field.rs2, toNat_ext, rType_toNat]; omega
@[simp] theorem rType_funct7 (f7 : BitVec 7) (rs2 : Reg) (rs1 : Reg) (f3 : BitVec 3) (rd : Reg) (op : BitVec 7) :
    Field.funct7 (rType f7 rs2 rs1 f3 rd op) = f7 := by
  have h0 := f7.isLt; have h1 := rs2.isLt; have h2 := rs1.isLt; have h3 := f3.isLt; have h4 := rd.isLt; have h5 := op.isLt
  apply BitVec.eq_of_toNat_eq; simp only [Field.funct7, toNat_ext, rType_toNat]; omega

/-! ### `iType` -/

theorem iType_toNat (imm : BitVec 12) (rs1 : Reg) (f3 : BitVec 3) (rd : Reg) (op : BitVec 7) :
    (iType imm rs1 f3 rd op).toNat = imm.toNat * 1048576 + rs1.toNat * 32768 + f3.toNat * 4096 + rd.toNat * 128 + op.toNat := by
  simp only [iType, toNat_app]; omega
@[simp] theorem iType_op (imm : BitVec 12) (rs1 : Reg) (f3 : BitVec 3) (rd : Reg) (op : BitVec 7) :
    Field.op (iType imm rs1 f3 rd op) = op := by
  have h0 := imm.isLt; have h1 := rs1.isLt; have h2 := f3.isLt; have h3 := rd.isLt; have h4 := op.isLt
  apply BitVec.eq_of_toNat_eq; simp only [Field.op, toNat_ext, iType_toNat]; omega
@[simp] theorem iType_rd (imm : BitVec 12) (rs1 : Reg) (f3 : BitVec 3) (rd : Reg) (op : BitVec 7) :
    Field.rd (iType imm rs1 f3 rd op) = rd := by
  have h0 := imm.isLt; have h1 := rs1.isLt; have h2 := f3.isLt; have h3 := rd.isLt; have h4 := op.isLt
  apply BitVec.eq_of_toNat_eq; simp only [Field.rd, toNat_ext, iType_toNat]; omega
@[simp] theorem iType_funct3 (imm : BitVec 12) (rs1 : Reg) (f3 : BitVec 3) (rd : Reg) (op : BitVec 7) :
    Field.funct3 (iType imm rs1 f3 rd op) = f3 := by
  have h0 := imm.isLt; have h1 := rs1.isLt; have h2 := f3.isLt; have h3 := rd.isLt; have h4 := op.isLt
  apply BitVec.eq_of_toNat_eq; simp only [Field.funct3, toNat_ext, iType_toNat]; omega
@[simp] theorem iType_rs1 (imm : BitVec 12) (rs1 : Reg) (f3 : BitVec 3) (rd : Reg) (op : BitVec 7) :
    Field.rs1 (iType imm rs1 f3 rd op) = rs1 := by
  have h0 := imm.isLt; have h1 := rs1.isLt; have h2 := f3.isLt; have h3 := rd.isLt; have h4 := op.isLt
  apply BitVec.eq_of_toNat_eq; simp only [Field.rs1, toNat_ext, iType_toNat]; omega
@[simp] theorem iType_imm12 (imm : BitVec 12) (rs1 : Reg) (f3 : BitVec 3) (rd : Reg) (op : BitVec 7) :
    Field.imm12 (iType imm rs1 f3 rd op) = imm := by
  have h0 := imm.isLt; have h1 := rs1.isLt; have h2 := f3.isLt; have h3 := rd.isLt; have h4 := op.isLt
  apply BitVec.eq_of_toNat_eq; simp only [Field.imm12, toNat_ext, iType_toNat]; omega

/-! ### `uType` -/

theorem uType_toNat (imm : BitVec 20) (rd : Reg) (op : BitVec 7) :
    (uType imm rd op).toNat = imm.toNat * 4096 + rd.toNat * 128 + op.toNat := by
  simp only [uType, toNat_app]; omega
@[simp] theorem uType_op (imm : BitVec 20) (rd : Reg) (op : BitVec 7) :
    Field.op (uType imm rd op) = op := by
  have h0 := imm.isLt; have h1 := rd.isLt; have h2 := op.isLt
  apply BitVec.eq_of_toNat_eq; simp only [Field.op, toNat_ext, uType_toNat]; omega
@[simp] theorem uType_rd (imm : BitVec 20) (rd : Reg) (op : BitVec 7) :
    Field.rd (uType imm rd op) = rd := by
  have h0 := imm.isLt; have h1 := rd.isLt; have h2 := op.isLt
  apply BitVec.eq_of_toNat_eq; simp only [Field.rd, toNat_ext, uType_toNat]; omega
@[simp] theorem uType_imm20 (imm : BitVec 20) (rd : Reg) (op : BitVec 7) :
    Field.imm20 (uType imm rd op) = imm := by
  have h0 := imm.isLt; have h1 := rd.isLt; have h2 := op.isLt
  apply BitVec.eq_of_toNat_eq; simp only [Field.imm20, toNat_ext, uType_toNat]; omega

/-! ### `shiftType` -/

theorem shiftType_toNat (f6 : BitVec 6) (shamt : BitVec 6) (rs1 : Reg) (f3 : BitVec 3) (rd : Reg) :
    (shiftType f6 shamt rs1 f3 rd).toNat = f6.toNat * 67108864 + shamt.toNat * 1048576 + rs1.toNat * 32768 + f3.toNat * 4096 + rd.toNat * 128 + 19 := by
  simp only [shiftType, toNat_app, BitVec.toNat_ofNat]; omega
@[simp] theorem shiftType_op (f6 : BitVec 6) (shamt : BitVec 6) (rs1 : Reg) (f3 : BitVec 3) (rd : Reg) :
    Field.op (shiftType f6 shamt rs1 f3 rd) = 0b0010011#7 := by
  have h0 := f6.isLt; have h1 := shamt.isLt; have h2 := rs1.isLt; have h3 := f3.isLt; have h4 := rd.isLt
  apply BitVec.eq_of_toNat_eq; simp only [Field.op, toNat_ext, shiftType_toNat, BitVec.toNat_ofNat]; omega
@[simp] theorem shiftType_rd (f6 : BitVec 6) (shamt : BitVec 6) (rs1 : Reg) (f3 : BitVec 3) (rd : Reg) :
    Field.rd (shiftType f6 shamt rs1 f3 rd) = rd := by
  have h0 := f6.isLt; have h1 := shamt.isLt; have h2 := rs1.isLt; have h3 := f3.isLt; have h4 := rd.isLt
  apply BitVec.eq_of_toNat_eq; simp only [Field.rd, toNat_ext, shiftType_toNat]; omega
@[simp] theorem shiftType_funct3 (f6 : BitVec 6) (shamt : BitVec 6) (rs1 : Reg) (f3 : BitVec 3) (rd : Reg) :
    Field.funct3 (shiftType f6 shamt rs1 f3 rd) = f3 := by
  have h0 := f6.isLt; have h1 := shamt.isLt; have h2 := rs1.isLt; have h3 := f3.isLt; have h4 := rd.isLt
  apply BitVec.eq_of_toNat_eq; simp only [Field.funct3, toNat_ext, shiftType_toNat]; omega
@[simp] theorem shiftType_rs1 (f6 : BitVec 6) (shamt : BitVec 6) (rs1 : Reg) (f3 : BitVec 3) (rd : Reg) :
    Field.rs1 (shiftType f6 shamt rs1 f3 rd) = rs1 := by
  have h0 := f6.isLt; have h1 := shamt.isLt; have h2 := rs1.isLt; have h3 := f3.isLt; have h4 := rd.isLt
  apply BitVec.eq_of_toNat_eq; simp only [Field.rs1, toNat_ext, shiftType_toNat]; omega
@[simp] theorem shiftType_shamt (f6 : BitVec 6) (shamt : BitVec 6) (rs1 : Reg) (f3 : BitVec 3) (rd : Reg) :
    Field.shamt (shiftType f6 shamt rs1 f3 rd) = shamt := by
  have h0 := f6.isLt; have h1 := shamt.isLt; have h2 := rs1.isLt; have h3 := f3.isLt; have h4 := rd.isLt
  apply BitVec.eq_of_toNat_eq; simp only [Field.shamt, toNat_ext, shiftType_toNat]; omega
@[simp] theorem shiftType_funct6 (f6 : BitVec 6) (shamt : BitVec 6) (rs1 : Reg) (f3 : BitVec 3) (rd : Reg) :
    Field.funct6 (shiftType f6 shamt rs1 f3 rd) = f6 := by
  have h0 := f6.isLt; have h1 := shamt.isLt; have h2 := rs1.isLt; have h3 := f3.isLt; have h4 := rd.isLt
  apply BitVec.eq_of_toNat_eq; simp only [Field.funct6, toNat_ext, shiftType_toNat]; omega

/-! ### `amoType` -/

theorem amoType_toNat (f5 : BitVec 5) (aq : Bool) (rl : Bool) (rs2 : Reg) (rs1 : Reg) (f3 : BitVec 3) (rd : Reg) :
    (amoType f5 aq rl rs2 rs1 f3 rd).toNat = f5.toNat * 134217728 + aq.toNat * 67108864 + rl.toNat * 33554432 + rs2.toNat * 1048576 + rs1.toNat * 32768 + f3.toNat * 4096 + rd.toNat * 128 + 47 := by
  simp only [amoType, toNat_app, toNat_bool, BitVec.toNat_ofNat]; omega
@[simp] theorem amoType_op (f5 : BitVec 5) (aq : Bool) (rl : Bool) (rs2 : Reg) (rs1 : Reg) (f3 : BitVec 3) (rd : Reg) :
    Field.op (amoType f5 aq rl rs2 rs1 f3 rd) = 0b0101111#7 := by
  have h0 := f5.isLt; have h3 := rs2.isLt; have h4 := rs1.isLt; have h5 := f3.isLt; have h6 := rd.isLt
  have kaq := Bool.toNat_le aq; have krl := Bool.toNat_le rl
  apply BitVec.eq_of_toNat_eq; simp only [Field.op, toNat_ext, amoType_toNat, BitVec.toNat_ofNat]; omega
@[simp] theorem amoType_rd (f5 : BitVec 5) (aq : Bool) (rl : Bool) (rs2 : Reg) (rs1 : Reg) (f3 : BitVec 3) (rd : Reg) :
    Field.rd (amoType f5 aq rl rs2 rs1 f3 rd) = rd := by
  have h0 := f5.isLt; have h3 := rs2.isLt; have h4 := rs1.isLt; have h5 := f3.isLt; have h6 := rd.isLt
  have kaq := Bool.toNat_le aq; have krl := Bool.toNat_le rl
  apply BitVec.eq_of_toNat_eq; simp only [Field.rd, toNat_ext, amoType_toNat]; omega
@[simp] theorem amoType_funct3 (f5 : BitVec 5) (aq : Bool) (rl : Bool) (rs2 : Reg) (rs1 : Reg) (f3 : BitVec 3) (rd : Reg) :
    Field.funct3 (amoType f5 aq rl rs2 rs1 f3 rd) = f3 := by
  have h0 := f5.isLt; have h3 := rs2.isLt; have h4 := rs1.isLt; have h5 := f3.isLt; have h6 := rd.isLt
  have kaq := Bool.toNat_le aq; have krl := Bool.toNat_le rl
  apply BitVec.eq_of_toNat_eq; simp only [Field.funct3, toNat_ext, amoType_toNat]; omega
@[simp] theorem amoType_rs1 (f5 : BitVec 5) (aq : Bool) (rl : Bool) (rs2 : Reg) (rs1 : Reg) (f3 : BitVec 3) (rd : Reg) :
    Field.rs1 (amoType f5 aq rl rs2 rs1 f3 rd) = rs1 := by
  have h0 := f5.isLt; have h3 := rs2.isLt; have h4 := rs1.isLt; have h5 := f3.isLt; have h6 := rd.isLt
  have kaq := Bool.toNat_le aq; have krl := Bool.toNat_le rl
  apply BitVec.eq_of_toNat_eq; simp only [Field.rs1, toNat_ext, amoType_toNat]; omega
@[simp] theorem amoType_rs2 (f5 : BitVec 5) (aq : Bool) (rl : Bool) (rs2 : Reg) (rs1 : Reg) (f3 : BitVec 3) (rd : Reg) :
    Field.rs2 (amoType f5 aq rl rs2 rs1 f3 rd) = rs2 := by
  have h0 := f5.isLt; have h3 := rs2.isLt; have h4 := rs1.isLt; have h5 := f3.isLt; have h6 := rd.isLt
  have kaq := Bool.toNat_le aq; have krl := Bool.toNat_le rl
  apply BitVec.eq_of_toNat_eq; simp only [Field.rs2, toNat_ext, amoType_toNat]; omega
@[simp] theorem amoType_funct5 (f5 : BitVec 5) (aq : Bool) (rl : Bool) (rs2 : Reg) (rs1 : Reg) (f3 : BitVec 3) (rd : Reg) :
    Field.funct5 (amoType f5 aq rl rs2 rs1 f3 rd) = f5 := by
  have h0 := f5.isLt; have h3 := rs2.isLt; have h4 := rs1.isLt; have h5 := f3.isLt; have h6 := rd.isLt
  have kaq := Bool.toNat_le aq; have krl := Bool.toNat_le rl
  apply BitVec.eq_of_toNat_eq; simp only [Field.funct5, toNat_ext, amoType_toNat]; omega
@[simp] theorem amoType_aq (f5 : BitVec 5) (aq : Bool) (rl : Bool) (rs2 : Reg) (rs1 : Reg) (f3 : BitVec 3) (rd : Reg) :
    Field.aq (amoType f5 aq rl rs2 rs1 f3 rd) = aq := by
  cases aq <;> cases rl <;> unfold Field.aq amoType <;> grind
@[simp] theorem amoType_rl (f5 : BitVec 5) (aq : Bool) (rl : Bool) (rs2 : Reg) (rs1 : Reg) (f3 : BitVec 3) (rd : Reg) :
    Field.rl (amoType f5 aq rl rs2 rs1 f3 rd) = rl := by
  cases aq <;> cases rl <;> unfold Field.rl amoType <;> grind

/-! ### `fenceType` -/

theorem fenceType_toNat (fm : BitVec 4) (pred : BitVec 4) (succ : BitVec 4) (rs1 : Reg) (rd : Reg) :
    (fenceType fm pred succ rs1 rd).toNat = fm.toNat * 268435456 + pred.toNat * 16777216 + succ.toNat * 1048576 + rs1.toNat * 32768 + rd.toNat * 128 + 15 := by
  simp only [fenceType, toNat_app, BitVec.toNat_ofNat]; omega
@[simp] theorem fenceType_op (fm : BitVec 4) (pred : BitVec 4) (succ : BitVec 4) (rs1 : Reg) (rd : Reg) :
    Field.op (fenceType fm pred succ rs1 rd) = 0b0001111#7 := by
  have h0 := fm.isLt; have h1 := pred.isLt; have h2 := succ.isLt; have h3 := rs1.isLt; have h4 := rd.isLt
  apply BitVec.eq_of_toNat_eq; simp only [Field.op, toNat_ext, fenceType_toNat, BitVec.toNat_ofNat]; omega
@[simp] theorem fenceType_rd (fm : BitVec 4) (pred : BitVec 4) (succ : BitVec 4) (rs1 : Reg) (rd : Reg) :
    Field.rd (fenceType fm pred succ rs1 rd) = rd := by
  have h0 := fm.isLt; have h1 := pred.isLt; have h2 := succ.isLt; have h3 := rs1.isLt; have h4 := rd.isLt
  apply BitVec.eq_of_toNat_eq; simp only [Field.rd, toNat_ext, fenceType_toNat]; omega
@[simp] theorem fenceType_funct3 (fm : BitVec 4) (pred : BitVec 4) (succ : BitVec 4) (rs1 : Reg) (rd : Reg) :
    Field.funct3 (fenceType fm pred succ rs1 rd) = 0#3 := by
  have h0 := fm.isLt; have h1 := pred.isLt; have h2 := succ.isLt; have h3 := rs1.isLt; have h4 := rd.isLt
  apply BitVec.eq_of_toNat_eq; simp only [Field.funct3, toNat_ext, fenceType_toNat, BitVec.toNat_ofNat]; omega
@[simp] theorem fenceType_rs1 (fm : BitVec 4) (pred : BitVec 4) (succ : BitVec 4) (rs1 : Reg) (rd : Reg) :
    Field.rs1 (fenceType fm pred succ rs1 rd) = rs1 := by
  have h0 := fm.isLt; have h1 := pred.isLt; have h2 := succ.isLt; have h3 := rs1.isLt; have h4 := rd.isLt
  apply BitVec.eq_of_toNat_eq; simp only [Field.rs1, toNat_ext, fenceType_toNat]; omega
@[simp] theorem fenceType_fm (fm : BitVec 4) (pred : BitVec 4) (succ : BitVec 4) (rs1 : Reg) (rd : Reg) :
    Field.fm (fenceType fm pred succ rs1 rd) = fm := by
  have h0 := fm.isLt; have h1 := pred.isLt; have h2 := succ.isLt; have h3 := rs1.isLt; have h4 := rd.isLt
  apply BitVec.eq_of_toNat_eq; simp only [Field.fm, toNat_ext, fenceType_toNat]; omega
@[simp] theorem fenceType_pred (fm : BitVec 4) (pred : BitVec 4) (succ : BitVec 4) (rs1 : Reg) (rd : Reg) :
    Field.pred (fenceType fm pred succ rs1 rd) = pred := by
  have h0 := fm.isLt; have h1 := pred.isLt; have h2 := succ.isLt; have h3 := rs1.isLt; have h4 := rd.isLt
  apply BitVec.eq_of_toNat_eq; simp only [Field.pred, toNat_ext, fenceType_toNat]; omega
@[simp] theorem fenceType_succ (fm : BitVec 4) (pred : BitVec 4) (succ : BitVec 4) (rs1 : Reg) (rd : Reg) :
    Field.succ (fenceType fm pred succ rs1 rd) = succ := by
  have h0 := fm.isLt; have h1 := pred.isLt; have h2 := succ.isLt; have h3 := rs1.isLt; have h4 := rd.isLt
  apply BitVec.eq_of_toNat_eq; simp only [Field.succ, toNat_ext, fenceType_toNat]; omega

/-! ### `ciType` -/

theorem ciType_toNat (f3 : BitVec 3) (b : BitVec 1) (r : Reg) (lo : BitVec 5) (q : BitVec 2) :
    (ciType f3 b r lo q).toNat = f3.toNat * 8192 + b.toNat * 4096 + r.toNat * 128 + lo.toNat * 4 + q.toNat := by
  simp only [ciType, toNat_app]; omega
@[simp] theorem ciType_quad (f3 : BitVec 3) (b : BitVec 1) (r : Reg) (lo : BitVec 5) (q : BitVec 2) :
    Parcel.quad (ciType f3 b r lo q) = q := by
  have h0 := f3.isLt; have h1 := b.isLt; have h2 := r.isLt; have h3 := lo.isLt; have h4 := q.isLt
  apply BitVec.eq_of_toNat_eq; simp only [Parcel.quad, toNat_ext, ciType_toNat]; omega
@[simp] theorem ciType_funct3 (f3 : BitVec 3) (b : BitVec 1) (r : Reg) (lo : BitVec 5) (q : BitVec 2) :
    Parcel.funct3 (ciType f3 b r lo q) = f3 := by
  have h0 := f3.isLt; have h1 := b.isLt; have h2 := r.isLt; have h3 := lo.isLt; have h4 := q.isLt
  apply BitVec.eq_of_toNat_eq; simp only [Parcel.funct3, toNat_ext, ciType_toNat]; omega
@[simp] theorem ciType_b12 (f3 : BitVec 3) (b : BitVec 1) (r : Reg) (lo : BitVec 5) (q : BitVec 2) :
    Parcel.b12 (ciType f3 b r lo q) = b := by
  have h0 := f3.isLt; have h1 := b.isLt; have h2 := r.isLt; have h3 := lo.isLt; have h4 := q.isLt
  apply BitVec.eq_of_toNat_eq; simp only [Parcel.b12, toNat_ext, ciType_toNat]; omega
@[simp] theorem ciType_rd (f3 : BitVec 3) (b : BitVec 1) (r : Reg) (lo : BitVec 5) (q : BitVec 2) :
    Parcel.rd (ciType f3 b r lo q) = r := by
  have h0 := f3.isLt; have h1 := b.isLt; have h2 := r.isLt; have h3 := lo.isLt; have h4 := q.isLt
  apply BitVec.eq_of_toNat_eq; simp only [Parcel.rd, toNat_ext, ciType_toNat]; omega
@[simp] theorem ciType_lo5 (f3 : BitVec 3) (b : BitVec 1) (r : Reg) (lo : BitVec 5) (q : BitVec 2) :
    Parcel.lo5 (ciType f3 b r lo q) = lo := by
  have h0 := f3.isLt; have h1 := b.isLt; have h2 := r.isLt; have h3 := lo.isLt; have h4 := q.isLt
  apply BitVec.eq_of_toNat_eq; simp only [Parcel.lo5, toNat_ext, ciType_toNat]; omega

/-! ### `cssType` -/

theorem cssType_toNat (f3 : BitVec 3) (imm : BitVec 6) (rs2 : Reg) :
    (cssType f3 imm rs2).toNat = f3.toNat * 8192 + imm.toNat * 128 + rs2.toNat * 4 + 2 := by
  simp only [cssType, toNat_app, BitVec.toNat_ofNat]; omega
@[simp] theorem cssType_quad (f3 : BitVec 3) (imm : BitVec 6) (rs2 : Reg) :
    Parcel.quad (cssType f3 imm rs2) = 2#2 := by
  have h0 := f3.isLt; have h1 := imm.isLt; have h2 := rs2.isLt
  apply BitVec.eq_of_toNat_eq; simp only [Parcel.quad, toNat_ext, cssType_toNat, BitVec.toNat_ofNat]; omega
@[simp] theorem cssType_funct3 (f3 : BitVec 3) (imm : BitVec 6) (rs2 : Reg) :
    Parcel.funct3 (cssType f3 imm rs2) = f3 := by
  have h0 := f3.isLt; have h1 := imm.isLt; have h2 := rs2.isLt
  apply BitVec.eq_of_toNat_eq; simp only [Parcel.funct3, toNat_ext, cssType_toNat]; omega
@[simp] theorem cssType_imm6 (f3 : BitVec 3) (imm : BitVec 6) (rs2 : Reg) :
    Parcel.imm6 (cssType f3 imm rs2) = imm := by
  have h0 := f3.isLt; have h1 := imm.isLt; have h2 := rs2.isLt
  apply BitVec.eq_of_toNat_eq; simp only [Parcel.imm6, toNat_ext, cssType_toNat]; omega
@[simp] theorem cssType_lo5 (f3 : BitVec 3) (imm : BitVec 6) (rs2 : Reg) :
    Parcel.lo5 (cssType f3 imm rs2) = rs2 := by
  have h0 := f3.isLt; have h1 := imm.isLt; have h2 := rs2.isLt
  apply BitVec.eq_of_toNat_eq; simp only [Parcel.lo5, toNat_ext, cssType_toNat]; omega

/-! ### `ciwType` -/

theorem ciwType_toNat (imm : BitVec 8) (rd : CReg) :
    (ciwType imm rd).toNat = imm.toNat * 32 + rd.toNat * 4 := by
  simp only [ciwType, toNat_app, BitVec.toNat_ofNat]; omega
@[simp] theorem ciwType_quad (imm : BitVec 8) (rd : CReg) :
    Parcel.quad (ciwType imm rd) = 0#2 := by
  have h0 := imm.isLt; have h1 := rd.isLt
  apply BitVec.eq_of_toNat_eq; simp only [Parcel.quad, toNat_ext, ciwType_toNat, BitVec.toNat_ofNat]; omega
@[simp] theorem ciwType_funct3 (imm : BitVec 8) (rd : CReg) :
    Parcel.funct3 (ciwType imm rd) = 0#3 := by
  have h0 := imm.isLt; have h1 := rd.isLt
  apply BitVec.eq_of_toNat_eq; simp only [Parcel.funct3, toNat_ext, ciwType_toNat, BitVec.toNat_ofNat]; omega
@[simp] theorem ciwType_imm8 (imm : BitVec 8) (rd : CReg) :
    Parcel.imm8 (ciwType imm rd) = imm := by
  have h0 := imm.isLt; have h1 := rd.isLt
  apply BitVec.eq_of_toNat_eq; simp only [Parcel.imm8, toNat_ext, ciwType_toNat]; omega
@[simp] theorem ciwType_rdp (imm : BitVec 8) (rd : CReg) :
    Parcel.rd' (ciwType imm rd) = rd := by
  have h0 := imm.isLt; have h1 := rd.isLt
  apply BitVec.eq_of_toNat_eq; simp only [Parcel.rd', toNat_ext, ciwType_toNat]; omega

/-! ### `clType` -/

theorem clType_toNat (f3 : BitVec 3) (hi : BitVec 3) (rs1 : CReg) (mid : BitVec 2) (r : CReg) :
    (clType f3 hi rs1 mid r).toNat = f3.toNat * 8192 + hi.toNat * 1024 + rs1.toNat * 128 + mid.toNat * 32 + r.toNat * 4 := by
  simp only [clType, toNat_app, BitVec.toNat_ofNat]; omega
@[simp] theorem clType_quad (f3 : BitVec 3) (hi : BitVec 3) (rs1 : CReg) (mid : BitVec 2) (r : CReg) :
    Parcel.quad (clType f3 hi rs1 mid r) = 0#2 := by
  have h0 := f3.isLt; have h1 := hi.isLt; have h2 := rs1.isLt; have h3 := mid.isLt; have h4 := r.isLt
  apply BitVec.eq_of_toNat_eq; simp only [Parcel.quad, toNat_ext, clType_toNat, BitVec.toNat_ofNat]; omega
@[simp] theorem clType_funct3 (f3 : BitVec 3) (hi : BitVec 3) (rs1 : CReg) (mid : BitVec 2) (r : CReg) :
    Parcel.funct3 (clType f3 hi rs1 mid r) = f3 := by
  have h0 := f3.isLt; have h1 := hi.isLt; have h2 := rs1.isLt; have h3 := mid.isLt; have h4 := r.isLt
  apply BitVec.eq_of_toNat_eq; simp only [Parcel.funct3, toNat_ext, clType_toNat]; omega
@[simp] theorem clType_hi3 (f3 : BitVec 3) (hi : BitVec 3) (rs1 : CReg) (mid : BitVec 2) (r : CReg) :
    Parcel.hi3 (clType f3 hi rs1 mid r) = hi := by
  have h0 := f3.isLt; have h1 := hi.isLt; have h2 := rs1.isLt; have h3 := mid.isLt; have h4 := r.isLt
  apply BitVec.eq_of_toNat_eq; simp only [Parcel.hi3, toNat_ext, clType_toNat]; omega
@[simp] theorem clType_rs1p (f3 : BitVec 3) (hi : BitVec 3) (rs1 : CReg) (mid : BitVec 2) (r : CReg) :
    Parcel.rs1' (clType f3 hi rs1 mid r) = rs1 := by
  have h0 := f3.isLt; have h1 := hi.isLt; have h2 := rs1.isLt; have h3 := mid.isLt; have h4 := r.isLt
  apply BitVec.eq_of_toNat_eq; simp only [Parcel.rs1', toNat_ext, clType_toNat]; omega
@[simp] theorem clType_mid2 (f3 : BitVec 3) (hi : BitVec 3) (rs1 : CReg) (mid : BitVec 2) (r : CReg) :
    Parcel.mid2 (clType f3 hi rs1 mid r) = mid := by
  have h0 := f3.isLt; have h1 := hi.isLt; have h2 := rs1.isLt; have h3 := mid.isLt; have h4 := r.isLt
  apply BitVec.eq_of_toNat_eq; simp only [Parcel.mid2, toNat_ext, clType_toNat]; omega
@[simp] theorem clType_rdp (f3 : BitVec 3) (hi : BitVec 3) (rs1 : CReg) (mid : BitVec 2) (r : CReg) :
    Parcel.rd' (clType f3 hi rs1 mid r) = r := by
  have h0 := f3.isLt; have h1 := hi.isLt; have h2 := rs1.isLt; have h3 := mid.isLt; have h4 := r.isLt
  apply BitVec.eq_of_toNat_eq; simp only [Parcel.rd', toNat_ext, clType_toNat]; omega

/-! ### `caType` -/

theorem caType_toNat (b : BitVec 1) (r : CReg) (mid : BitVec 2) (rs2 : CReg) :
    (caType b r mid rs2).toNat = 32768 + b.toNat * 4096 + 3072 + r.toNat * 128 + mid.toNat * 32 + rs2.toNat * 4 + 1 := by
  simp only [caType, toNat_app, BitVec.toNat_ofNat]; omega
@[simp] theorem caType_quad (b : BitVec 1) (r : CReg) (mid : BitVec 2) (rs2 : CReg) :
    Parcel.quad (caType b r mid rs2) = 1#2 := by
  have h0 := b.isLt; have h1 := r.isLt; have h2 := mid.isLt; have h3 := rs2.isLt
  apply BitVec.eq_of_toNat_eq; simp only [Parcel.quad, toNat_ext, caType_toNat, BitVec.toNat_ofNat]; omega
@[simp] theorem caType_funct3 (b : BitVec 1) (r : CReg) (mid : BitVec 2) (rs2 : CReg) :
    Parcel.funct3 (caType b r mid rs2) = 4#3 := by
  have h0 := b.isLt; have h1 := r.isLt; have h2 := mid.isLt; have h3 := rs2.isLt
  apply BitVec.eq_of_toNat_eq; simp only [Parcel.funct3, toNat_ext, caType_toNat, BitVec.toNat_ofNat]; omega
@[simp] theorem caType_b12 (b : BitVec 1) (r : CReg) (mid : BitVec 2) (rs2 : CReg) :
    Parcel.b12 (caType b r mid rs2) = b := by
  have h0 := b.isLt; have h1 := r.isLt; have h2 := mid.isLt; have h3 := rs2.isLt
  apply BitVec.eq_of_toNat_eq; simp only [Parcel.b12, toNat_ext, caType_toNat]; omega
@[simp] theorem caType_f2 (b : BitVec 1) (r : CReg) (mid : BitVec 2) (rs2 : CReg) :
    Parcel.f2 (caType b r mid rs2) = 3#2 := by
  have h0 := b.isLt; have h1 := r.isLt; have h2 := mid.isLt; have h3 := rs2.isLt
  apply BitVec.eq_of_toNat_eq; simp only [Parcel.f2, toNat_ext, caType_toNat, BitVec.toNat_ofNat]; omega
@[simp] theorem caType_rs1p (b : BitVec 1) (r : CReg) (mid : BitVec 2) (rs2 : CReg) :
    Parcel.rs1' (caType b r mid rs2) = r := by
  have h0 := b.isLt; have h1 := r.isLt; have h2 := mid.isLt; have h3 := rs2.isLt
  apply BitVec.eq_of_toNat_eq; simp only [Parcel.rs1', toNat_ext, caType_toNat]; omega
@[simp] theorem caType_mid2 (b : BitVec 1) (r : CReg) (mid : BitVec 2) (rs2 : CReg) :
    Parcel.mid2 (caType b r mid rs2) = mid := by
  have h0 := b.isLt; have h1 := r.isLt; have h2 := mid.isLt; have h3 := rs2.isLt
  apply BitVec.eq_of_toNat_eq; simp only [Parcel.mid2, toNat_ext, caType_toNat]; omega
@[simp] theorem caType_rdp (b : BitVec 1) (r : CReg) (mid : BitVec 2) (rs2 : CReg) :
    Parcel.rd' (caType b r mid rs2) = rs2 := by
  have h0 := b.isLt; have h1 := r.isLt; have h2 := mid.isLt; have h3 := rs2.isLt
  apply BitVec.eq_of_toNat_eq; simp only [Parcel.rd', toNat_ext, caType_toNat]; omega

/-! ### `cbAluType` -/

theorem cbAluType_toNat (b : BitVec 1) (f2 : BitVec 2) (r : CReg) (lo : BitVec 5) :
    (cbAluType b f2 r lo).toNat = 32768 + b.toNat * 4096 + f2.toNat * 1024 + r.toNat * 128 + lo.toNat * 4 + 1 := by
  simp only [cbAluType, toNat_app, BitVec.toNat_ofNat]; omega
@[simp] theorem cbAluType_quad (b : BitVec 1) (f2 : BitVec 2) (r : CReg) (lo : BitVec 5) :
    Parcel.quad (cbAluType b f2 r lo) = 1#2 := by
  have h0 := b.isLt; have h1 := f2.isLt; have h2 := r.isLt; have h3 := lo.isLt
  apply BitVec.eq_of_toNat_eq; simp only [Parcel.quad, toNat_ext, cbAluType_toNat, BitVec.toNat_ofNat]; omega
@[simp] theorem cbAluType_funct3 (b : BitVec 1) (f2 : BitVec 2) (r : CReg) (lo : BitVec 5) :
    Parcel.funct3 (cbAluType b f2 r lo) = 4#3 := by
  have h0 := b.isLt; have h1 := f2.isLt; have h2 := r.isLt; have h3 := lo.isLt
  apply BitVec.eq_of_toNat_eq; simp only [Parcel.funct3, toNat_ext, cbAluType_toNat, BitVec.toNat_ofNat]; omega
@[simp] theorem cbAluType_b12 (b : BitVec 1) (f2 : BitVec 2) (r : CReg) (lo : BitVec 5) :
    Parcel.b12 (cbAluType b f2 r lo) = b := by
  have h0 := b.isLt; have h1 := f2.isLt; have h2 := r.isLt; have h3 := lo.isLt
  apply BitVec.eq_of_toNat_eq; simp only [Parcel.b12, toNat_ext, cbAluType_toNat]; omega
@[simp] theorem cbAluType_f2 (b : BitVec 1) (f2 : BitVec 2) (r : CReg) (lo : BitVec 5) :
    Parcel.f2 (cbAluType b f2 r lo) = f2 := by
  have h0 := b.isLt; have h1 := f2.isLt; have h2 := r.isLt; have h3 := lo.isLt
  apply BitVec.eq_of_toNat_eq; simp only [Parcel.f2, toNat_ext, cbAluType_toNat]; omega
@[simp] theorem cbAluType_rs1p (b : BitVec 1) (f2 : BitVec 2) (r : CReg) (lo : BitVec 5) :
    Parcel.rs1' (cbAluType b f2 r lo) = r := by
  have h0 := b.isLt; have h1 := f2.isLt; have h2 := r.isLt; have h3 := lo.isLt
  apply BitVec.eq_of_toNat_eq; simp only [Parcel.rs1', toNat_ext, cbAluType_toNat]; omega
@[simp] theorem cbAluType_lo5 (b : BitVec 1) (f2 : BitVec 2) (r : CReg) (lo : BitVec 5) :
    Parcel.lo5 (cbAluType b f2 r lo) = lo := by
  have h0 := b.isLt; have h1 := f2.isLt; have h2 := r.isLt; have h3 := lo.isLt
  apply BitVec.eq_of_toNat_eq; simp only [Parcel.lo5, toNat_ext, cbAluType_toNat]; omega

/-! ### `cbType` -/

theorem cbType_toNat (f3 : BitVec 3) (hi : BitVec 3) (r : CReg) (lo : BitVec 5) :
    (cbType f3 hi r lo).toNat = f3.toNat * 8192 + hi.toNat * 1024 + r.toNat * 128 + lo.toNat * 4 + 1 := by
  simp only [cbType, toNat_app, BitVec.toNat_ofNat]; omega
@[simp] theorem cbType_quad (f3 : BitVec 3) (hi : BitVec 3) (r : CReg) (lo : BitVec 5) :
    Parcel.quad (cbType f3 hi r lo) = 1#2 := by
  have h0 := f3.isLt; have h1 := hi.isLt; have h2 := r.isLt; have h3 := lo.isLt
  apply BitVec.eq_of_toNat_eq; simp only [Parcel.quad, toNat_ext, cbType_toNat, BitVec.toNat_ofNat]; omega
@[simp] theorem cbType_funct3 (f3 : BitVec 3) (hi : BitVec 3) (r : CReg) (lo : BitVec 5) :
    Parcel.funct3 (cbType f3 hi r lo) = f3 := by
  have h0 := f3.isLt; have h1 := hi.isLt; have h2 := r.isLt; have h3 := lo.isLt
  apply BitVec.eq_of_toNat_eq; simp only [Parcel.funct3, toNat_ext, cbType_toNat]; omega
@[simp] theorem cbType_hi3 (f3 : BitVec 3) (hi : BitVec 3) (r : CReg) (lo : BitVec 5) :
    Parcel.hi3 (cbType f3 hi r lo) = hi := by
  have h0 := f3.isLt; have h1 := hi.isLt; have h2 := r.isLt; have h3 := lo.isLt
  apply BitVec.eq_of_toNat_eq; simp only [Parcel.hi3, toNat_ext, cbType_toNat]; omega
@[simp] theorem cbType_rs1p (f3 : BitVec 3) (hi : BitVec 3) (r : CReg) (lo : BitVec 5) :
    Parcel.rs1' (cbType f3 hi r lo) = r := by
  have h0 := f3.isLt; have h1 := hi.isLt; have h2 := r.isLt; have h3 := lo.isLt
  apply BitVec.eq_of_toNat_eq; simp only [Parcel.rs1', toNat_ext, cbType_toNat]; omega
@[simp] theorem cbType_lo5 (f3 : BitVec 3) (hi : BitVec 3) (r : CReg) (lo : BitVec 5) :
    Parcel.lo5 (cbType f3 hi r lo) = lo := by
  have h0 := f3.isLt; have h1 := hi.isLt; have h2 := r.isLt; have h3 := lo.isLt
  apply BitVec.eq_of_toNat_eq; simp only [Parcel.lo5, toNat_ext, cbType_toNat]; omega

/-! ### `cjType` -/

theorem cjType_toNat (f3 : BitVec 3) (t : BitVec 11) :
    (cjType f3 t).toNat = f3.toNat * 8192 + t.toNat * 4 + 1 := by
  simp only [cjType, toNat_app, BitVec.toNat_ofNat]; omega
@[simp] theorem cjType_quad (f3 : BitVec 3) (t : BitVec 11) :
    Parcel.quad (cjType f3 t) = 1#2 := by
  have h0 := f3.isLt; have h1 := t.isLt
  apply BitVec.eq_of_toNat_eq; simp only [Parcel.quad, toNat_ext, cjType_toNat, BitVec.toNat_ofNat]; omega
@[simp] theorem cjType_funct3 (f3 : BitVec 3) (t : BitVec 11) :
    Parcel.funct3 (cjType f3 t) = f3 := by
  have h0 := f3.isLt; have h1 := t.isLt
  apply BitVec.eq_of_toNat_eq; simp only [Parcel.funct3, toNat_ext, cjType_toNat]; omega
@[simp] theorem cjType_imm11 (f3 : BitVec 3) (t : BitVec 11) :
    Parcel.imm11 (cjType f3 t) = t := by
  have h0 := f3.isLt; have h1 := t.isLt
  apply BitVec.eq_of_toNat_eq; simp only [Parcel.imm11, toNat_ext, cjType_toNat]; omega

/-! ### Immediates -/

@[simp] theorem gatherB_scatter (i : BitVec 12) : Imm.gatherB (Imm.scatterBHi i) (Imm.scatterBLo i) = i := by
  apply BitVec.eq_of_getLsbD_eq; intro j hj
  interval_cases j <;> simp only [Imm.gatherB, Imm.scatterBHi, Imm.scatterBLo, getLsbD_app, getLsbD_ext] <;> rfl
@[simp] theorem scatterBHi_gather (x : BitVec 7) (y : BitVec 5) : Imm.scatterBHi (Imm.gatherB x y) = x := by
  apply BitVec.eq_of_getLsbD_eq; intro j hj
  interval_cases j <;> simp only [Imm.gatherB, Imm.scatterBHi, getLsbD_app, getLsbD_ext] <;> rfl
@[simp] theorem scatterBLo_gather (x : BitVec 7) (y : BitVec 5) : Imm.scatterBLo (Imm.gatherB x y) = y := by
  apply BitVec.eq_of_getLsbD_eq; intro j hj
  interval_cases j <;> simp only [Imm.gatherB, Imm.scatterBLo, getLsbD_app, getLsbD_ext] <;> rfl
@[simp] theorem gatherW_scatter (i : BitVec 5) : Imm.gatherW (Imm.scatterWHi i) (Imm.scatterWMid i) = i := by
  apply BitVec.eq_of_getLsbD_eq; intro j hj
  interval_cases j <;> simp only [Imm.gatherW, Imm.scatterWHi, Imm.scatterWMid, getLsbD_app, getLsbD_ext] <;> rfl
@[simp] theorem scatterWHi_gather (x : BitVec 3) (y : BitVec 2) : Imm.scatterWHi (Imm.gatherW x y) = x := by
  apply BitVec.eq_of_getLsbD_eq; intro j hj
  interval_cases j <;> simp only [Imm.gatherW, Imm.scatterWHi, getLsbD_app, getLsbD_ext] <;> rfl
@[simp] theorem scatterWMid_gather (x : BitVec 3) (y : BitVec 2) : Imm.scatterWMid (Imm.gatherW x y) = y := by
  apply BitVec.eq_of_getLsbD_eq; intro j hj
  interval_cases j <;> simp only [Imm.gatherW, Imm.scatterWMid, getLsbD_app, getLsbD_ext] <;> rfl
@[simp] theorem gatherD_scatter (i : BitVec 5) : Imm.gatherD (Imm.scatterDHi i) (Imm.scatterDMid i) = i := by
  apply BitVec.eq_of_getLsbD_eq; intro j hj
  interval_cases j <;> simp only [Imm.gatherD, Imm.scatterDHi, Imm.scatterDMid, getLsbD_app, getLsbD_ext] <;> rfl
@[simp] theorem scatterDHi_gather (x : BitVec 3) (y : BitVec 2) : Imm.scatterDHi (Imm.gatherD x y) = x := by
  apply BitVec.eq_of_getLsbD_eq; intro j hj
  interval_cases j <;> simp only [Imm.gatherD, Imm.scatterDHi, getLsbD_app, getLsbD_ext] <;> rfl
@[simp] theorem scatterDMid_gather (x : BitVec 3) (y : BitVec 2) : Imm.scatterDMid (Imm.gatherD x y) = y := by
  apply BitVec.eq_of_getLsbD_eq; intro j hj
  interval_cases j <;> simp only [Imm.gatherD, Imm.scatterDMid, getLsbD_app, getLsbD_ext] <;> rfl
@[simp] theorem gatherI_scatter (i : BitVec 6) : Imm.gatherI (Imm.scatterIB i) (Imm.scatterILo i) = i := by
  apply BitVec.eq_of_getLsbD_eq; intro j hj
  interval_cases j <;> simp only [Imm.gatherI, Imm.scatterIB, Imm.scatterILo, getLsbD_app, getLsbD_ext] <;> rfl
@[simp] theorem scatterIB_gather (x : BitVec 1) (y : BitVec 5) : Imm.scatterIB (Imm.gatherI x y) = x := by
  apply BitVec.eq_of_getLsbD_eq; intro j hj
  interval_cases j; simp only [Imm.gatherI, Imm.scatterIB, getLsbD_app, getLsbD_ext]; rfl
@[simp] theorem scatterILo_gather (x : BitVec 1) (y : BitVec 5) : Imm.scatterILo (Imm.gatherI x y) = y := by
  apply BitVec.eq_of_getLsbD_eq; intro j hj
  interval_cases j <;> simp only [Imm.gatherI, Imm.scatterILo, getLsbD_app, getLsbD_ext] <;> rfl
@[simp] theorem gather16_scatter (i : BitVec 6) : Imm.gather16 (Imm.scatter16B i) (Imm.scatter16Lo i) = i := by
  apply BitVec.eq_of_getLsbD_eq; intro j hj
  interval_cases j <;> simp only [Imm.gather16, Imm.scatter16B, Imm.scatter16Lo, getLsbD_app, getLsbD_ext] <;> rfl
@[simp] theorem scatter16B_gather (x : BitVec 1) (y : BitVec 5) : Imm.scatter16B (Imm.gather16 x y) = x := by
  apply BitVec.eq_of_getLsbD_eq; intro j hj
  interval_cases j; simp only [Imm.gather16, Imm.scatter16B, getLsbD_app, getLsbD_ext]; rfl
@[simp] theorem scatter16Lo_gather (x : BitVec 1) (y : BitVec 5) : Imm.scatter16Lo (Imm.gather16 x y) = y := by
  apply BitVec.eq_of_getLsbD_eq; intro j hj
  interval_cases j <;> simp only [Imm.gather16, Imm.scatter16Lo, getLsbD_app, getLsbD_ext] <;> rfl
@[simp] theorem gatherLwsp_scatter (i : BitVec 6) : Imm.gatherLwsp (Imm.scatterLwspB i) (Imm.scatterLwspLo i) = i := by
  apply BitVec.eq_of_getLsbD_eq; intro j hj
  interval_cases j <;> simp only [Imm.gatherLwsp, Imm.scatterLwspB, Imm.scatterLwspLo, getLsbD_app, getLsbD_ext] <;> rfl
@[simp] theorem scatterLwspB_gather (x : BitVec 1) (y : BitVec 5) : Imm.scatterLwspB (Imm.gatherLwsp x y) = x := by
  apply BitVec.eq_of_getLsbD_eq; intro j hj
  interval_cases j; simp only [Imm.gatherLwsp, Imm.scatterLwspB, getLsbD_app, getLsbD_ext]; rfl
@[simp] theorem scatterLwspLo_gather (x : BitVec 1) (y : BitVec 5) : Imm.scatterLwspLo (Imm.gatherLwsp x y) = y := by
  apply BitVec.eq_of_getLsbD_eq; intro j hj
  interval_cases j <;> simp only [Imm.gatherLwsp, Imm.scatterLwspLo, getLsbD_app, getLsbD_ext] <;> rfl
@[simp] theorem gatherLdsp_scatter (i : BitVec 6) : Imm.gatherLdsp (Imm.scatterLdspB i) (Imm.scatterLdspLo i) = i := by
  apply BitVec.eq_of_getLsbD_eq; intro j hj
  interval_cases j <;> simp only [Imm.gatherLdsp, Imm.scatterLdspB, Imm.scatterLdspLo, getLsbD_app, getLsbD_ext] <;> rfl
@[simp] theorem scatterLdspB_gather (x : BitVec 1) (y : BitVec 5) : Imm.scatterLdspB (Imm.gatherLdsp x y) = x := by
  apply BitVec.eq_of_getLsbD_eq; intro j hj
  interval_cases j; simp only [Imm.gatherLdsp, Imm.scatterLdspB, getLsbD_app, getLsbD_ext]; rfl
@[simp] theorem scatterLdspLo_gather (x : BitVec 1) (y : BitVec 5) : Imm.scatterLdspLo (Imm.gatherLdsp x y) = y := by
  apply BitVec.eq_of_getLsbD_eq; intro j hj
  interval_cases j <;> simp only [Imm.gatherLdsp, Imm.scatterLdspLo, getLsbD_app, getLsbD_ext] <;> rfl
@[simp] theorem gatherCB_scatter (i : BitVec 8) : Imm.gatherCB (Imm.scatterCBHi i) (Imm.scatterCBLo i) = i := by
  apply BitVec.eq_of_getLsbD_eq; intro j hj
  interval_cases j <;> simp only [Imm.gatherCB, Imm.scatterCBHi, Imm.scatterCBLo, getLsbD_app, getLsbD_ext] <;> rfl
@[simp] theorem scatterCBHi_gather (x : BitVec 3) (y : BitVec 5) : Imm.scatterCBHi (Imm.gatherCB x y) = x := by
  apply BitVec.eq_of_getLsbD_eq; intro j hj
  interval_cases j <;> simp only [Imm.gatherCB, Imm.scatterCBHi, getLsbD_app, getLsbD_ext] <;> rfl
@[simp] theorem scatterCBLo_gather (x : BitVec 3) (y : BitVec 5) : Imm.scatterCBLo (Imm.gatherCB x y) = y := by
  apply BitVec.eq_of_getLsbD_eq; intro j hj
  interval_cases j <;> simp only [Imm.gatherCB, Imm.scatterCBLo, getLsbD_app, getLsbD_ext] <;> rfl
@[simp] theorem gatherSpn_scatter (i : BitVec 8) : Imm.gatherSpn (Imm.scatterSpn i) = i := by
  apply BitVec.eq_of_getLsbD_eq; intro j hj
  interval_cases j <;> simp only [Imm.gatherSpn, Imm.scatterSpn, getLsbD_app, getLsbD_ext] <;> rfl
@[simp] theorem scatterSpn_gather (i : BitVec 8) : Imm.scatterSpn (Imm.gatherSpn i) = i := by
  apply BitVec.eq_of_getLsbD_eq; intro j hj
  interval_cases j <;> simp only [Imm.gatherSpn, Imm.scatterSpn, getLsbD_app, getLsbD_ext] <;> rfl
@[simp] theorem gatherSwsp_scatter (i : BitVec 6) : Imm.gatherSwsp (Imm.scatterSwsp i) = i := by
  apply BitVec.eq_of_getLsbD_eq; intro j hj
  interval_cases j <;> simp only [Imm.gatherSwsp, Imm.scatterSwsp, getLsbD_app, getLsbD_ext] <;> rfl
@[simp] theorem scatterSwsp_gather (i : BitVec 6) : Imm.scatterSwsp (Imm.gatherSwsp i) = i := by
  apply BitVec.eq_of_getLsbD_eq; intro j hj
  interval_cases j <;> simp only [Imm.gatherSwsp, Imm.scatterSwsp, getLsbD_app, getLsbD_ext] <;> rfl
@[simp] theorem gatherSdsp_scatter (i : BitVec 6) : Imm.gatherSdsp (Imm.scatterSdsp i) = i := by
  apply BitVec.eq_of_getLsbD_eq; intro j hj
  interval_cases j <;> simp only [Imm.gatherSdsp, Imm.scatterSdsp, getLsbD_app, getLsbD_ext] <;> rfl
@[simp] theorem scatterSdsp_gather (i : BitVec 6) : Imm.scatterSdsp (Imm.gatherSdsp i) = i := by
  apply BitVec.eq_of_getLsbD_eq; intro j hj
  interval_cases j <;> simp only [Imm.gatherSdsp, Imm.scatterSdsp, getLsbD_app, getLsbD_ext] <;> rfl
@[simp] theorem gatherCJ_scatter (i : BitVec 11) : Imm.gatherCJ (Imm.scatterCJ i) = i := by
  apply BitVec.eq_of_getLsbD_eq; intro j hj
  interval_cases j <;> simp only [Imm.gatherCJ, Imm.scatterCJ, getLsbD_app, getLsbD_ext] <;> rfl
@[simp] theorem scatterCJ_gather (i : BitVec 11) : Imm.scatterCJ (Imm.gatherCJ i) = i := by
  apply BitVec.eq_of_getLsbD_eq; intro j hj
  interval_cases j <;> simp only [Imm.gatherCJ, Imm.scatterCJ, getLsbD_app, getLsbD_ext] <;> rfl
@[simp] theorem gatherJ_scatter (i : BitVec 20) : Imm.gatherJ (Imm.scatterJ i) = i := by
  apply BitVec.eq_of_getLsbD_eq; intro j hj
  interval_cases j <;> simp only [Imm.gatherJ, Imm.scatterJ, getLsbD_app, getLsbD_ext] <;> rfl
@[simp] theorem scatterJ_gather (i : BitVec 20) : Imm.scatterJ (Imm.gatherJ i) = i := by
  apply BitVec.eq_of_getLsbD_eq; intro j hj
  interval_cases j <;> simp only [Imm.gatherJ, Imm.scatterJ, getLsbD_app, getLsbD_ext] <;> rfl

/-- The S immediate (R224). -/
@[simp] theorem gatherS_scatter (i : BitVec 12) : i.extractLsb' 5 7 ++ i.extractLsb' 0 5 = i := by
  have h := i.isLt
  apply BitVec.eq_of_toNat_eq
  simp only [toNat_ext, toNat_app]
  omega

@[simp] theorem scatterSpn_eq_zero (u : BitVec 8) : Imm.scatterSpn u = 0#8 ↔ u = 0#8 := by
  constructor
  · intro h; rw [← gatherSpn_scatter u, h]; rfl
  · rintro rfl; rfl

@[simp] theorem scatter16_eq_zero (u : BitVec 6) :
    Imm.gatherI (Imm.scatter16B u) (Imm.scatter16Lo u) = 0#6 ↔ u = 0#6 := by
  revert u; decide +kernel

@[simp] theorem scatterIB_eq_one (u : BitVec 6) : Imm.scatterIB u = 1#1 ↔ u[5] = true := by
  revert u; decide +kernel

/-- A SYSTEM word with another `funct7` is none of the exact words. -/
theorem rType_ne {f7 : BitVec 7} {rs2 rs1 : Reg} {f3 : BitVec 3} {rd : Reg} {op : BitVec 7} {w : BitVec 32}
    (h : f7 ≠ Field.funct7 w) : rType f7 rs2 rs1 f3 rd op ≠ w := by
  rintro rfl; simp at h

end Sys2Proof
end

