-- ==== Sys2Proof/Laws/Memory.lean ====
section
/-! SUPPORT. The laws of physical memory: a write keeps the canonical form, is read back, and leaves every other byte. -/

namespace Sys2Proof.Machine

open Sys2Proof

theorem Memory.wf_nil : Memory.wf [] := by simp [Memory.wf]

theorem Memory.wf_cons {k : Nat} {b : Byte} {m : Memory} :
    Memory.wf ((k, b) :: m) ↔ (∀ c ∈ m, k < c.1) ∧ b ≠ 0#8 ∧ Memory.wf m := by
  simp only [Memory.wf, List.pairwise_cons, List.forall_mem_cons]
  tauto

/-- Every address a write leaves listed is the written one or was listed. -/
theorem Memory.mem_write {m : Memory} {a : Nat} {v : Byte} {c : Host.Cell} (h : c ∈ m.write a v) :
    c = (a, v) ∨ c ∈ m := by
  induction m with
  | nil => simp only [Memory.write] at h; split at h <;> simp_all
  | cons e m ih =>
    obtain ⟨k, b⟩ := e
    simp only [Memory.write] at h
    split_ifs at h <;> simp only [List.mem_cons] at h ⊢ <;> tauto

theorem Memory.wf_write {m : Memory} (a : Nat) (v : Byte) (h : m.wf) : (m.write a v).wf := by
  induction m with
  | nil => simp only [Memory.write]; split_ifs with h0 <;> simp [Memory.wf, h0]
  | cons e m ih =>
    obtain ⟨k, b⟩ := e
    have h' := Memory.wf_cons.1 h
    obtain ⟨hk, hb, hm⟩ := h'
    simp only [Memory.write]
    split_ifs with h1 h2 h3 h4
    · exact h
    · refine Memory.wf_cons.2 ⟨?_, h2, h⟩
      intro c hc
      rcases List.mem_cons.1 hc with rfl | hc
      · exact h1
      · exact Nat.lt_trans h1 (hk c hc)
    · exact hm
    · refine Memory.wf_cons.2 ⟨?_, h4, hm⟩
      subst h3; exact hk
    · refine Memory.wf_cons.2 ⟨?_, hb, ih hm⟩
      intro c hc
      rcases Memory.mem_write hc with rfl | hc
      · simp only; omega
      · exact hk c hc

/-- An address below every listed one reads 0. -/
theorem Memory.read_below {m : Memory} {a : Nat} (h : ∀ c ∈ m, a < c.1) : m.read a = 0#8 := by
  induction m with
  | nil => rfl
  | cons e m ih =>
    obtain ⟨k, b⟩ := e
    have h1 : a < k := h (k, b) (by simp)
    simp only [Memory.read, Nat.ne_of_gt h1, if_false]
    exact ih fun c hc => h c (List.mem_cons_of_mem _ hc)

/-- Read after write: the written byte, and every other byte as before. -/
theorem Memory.read_write {m : Memory} (h : m.wf) (a b : Nat) (v : Byte) :
    (m.write a v).read b = if b = a then v else m.read b := by
  induction m with
  | nil =>
    by_cases hv : v = 0#8
    · subst hv; simp [Memory.write, Memory.read]
    · simp [Memory.write, hv, Memory.read, eq_comm]
  | cons e m ih =>
    obtain ⟨k, w⟩ := e
    obtain ⟨hk, hw, hm⟩ := Memory.wf_cons.1 h
    have below : ∀ {x : Nat}, x < k → Memory.read ((k, w) :: m) x = 0#8 := fun hx =>
      Memory.read_below fun c hc => by
        rcases List.mem_cons.1 hc with rfl | hc
        · exact hx
        · exact Nat.lt_trans hx (hk c hc)
    by_cases hak : a < k
    · by_cases hv : v = 0#8
      · by_cases hb : b = a
        · subst hb; subst hv; simpa [Memory.write, hak] using below hak
        · simp [Memory.write, hak, hv, hb]
      · simp [Memory.write, hak, hv, Memory.read, eq_comm]
    · by_cases he : a = k
      · subst he
        by_cases hv : v = 0#8
        · by_cases hb : b = a
          · subst hb; subst hv; simpa [Memory.write] using Memory.read_below hk
          · simp [Memory.write, hv, hb, Memory.read, Ne.symm hb]
        · by_cases hb : b = a
          · subst hb; simp [Memory.write, hv, Memory.read]
          · simp [Memory.write, hv, hb, Memory.read, Ne.symm hb]
      · by_cases hb : k = b
        · subst hb; simp [Memory.write, hak, he, Memory.read, Ne.symm he]
        · simp [Memory.write, hak, he, Memory.read, hb, ih hm]

theorem Memory.wf_writeLE {m : Memory} (pas : List Nat) (v : Word) (h : m.wf) : (m.writeLE pas v).wf := by
  induction pas generalizing m v with
  | nil => exact h
  | cons a as ih => exact ih _ (Memory.wf_write _ _ h)

/-- A store leaves every byte outside its addresses. -/
theorem Memory.read_writeLE_other {m : Memory} (h : m.wf) {pas : List Nat} {v : Word} {b : Nat} (hb : b ∉ pas) :
    (m.writeLE pas v).read b = m.read b := by
  induction pas generalizing m v with
  | nil => rfl
  | cons a as ih =>
    simp only [List.mem_cons, not_or] at hb
    simp only [Memory.writeLE]
    rw [ih (Memory.wf_write _ _ h) hb.2, Memory.read_write h, if_neg hb.1]

/-- A store puts byte `k` of its value at its `k`-th address (R142). -/
theorem Memory.read_writeLE {m : Memory} (h : m.wf) {pas : List Nat} (hd : pas.Nodup) (v : Word) (k : Nat)
    (hk : k < pas.length) : (m.writeLE pas v).read pas[k] = v.extractLsb' (8 * k) 8 := by
  induction pas generalizing m v k with
  | nil => simp at hk
  | cons a as ih =>
    obtain ⟨ha, has⟩ := List.nodup_cons.1 hd
    simp only [Memory.writeLE]
    cases k with
    | zero =>
      simp only [List.getElem_cons_zero]
      rw [Memory.read_writeLE_other (Memory.wf_write _ _ h) ha, Memory.read_write h, if_pos rfl]
      ext i hi; simp [BitVec.getElem_setWidth, BitVec.getElem_extractLsb', BitVec.getLsbD]
    | succ k =>
      simp only [List.getElem_cons_succ]
      rw [ih (Memory.wf_write _ _ h) has]
      ext i hi
      simp only [BitVec.getElem_extractLsb', BitVec.getLsbD_ushiftRight]
      congr 1; omega

/-- The cells a store lists are at its addresses or were listed. -/
theorem Memory.mem_writeLE {m : Memory} {pas : List Nat} {v : Word} {c : Host.Cell} (h : c ∈ m.writeLE pas v) :
    c.1 ∈ pas ∨ c ∈ m := by
  induction pas generalizing m v with
  | nil => exact .inr h
  | cons a as ih =>
    rcases ih h with h | h
    · exact .inl (List.mem_cons_of_mem _ h)
    · rcases Memory.mem_write h with rfl | h
      · exact .inl (by simp)
      · exact .inr h

/-- Equal bytes at its addresses give an equal little-endian value. -/
theorem Memory.readLE_congr {m m' : Memory} {pas : List Nat} (h : ∀ a ∈ pas, m'.read a = m.read a) :
    m'.readLE pas = m.readLE pas := by
  induction pas with
  | nil => rfl
  | cons a as ih =>
    simp only [Memory.readLE]
    rw [h a (by simp), ih fun b hb => h b (List.mem_cons_of_mem _ hb)]

/-- The little-endian value as a sum of bytes (R142), for an access of at most 8 bytes. -/
theorem Memory.readLE_cons_toNat (m : Memory) (a : Nat) (as : List Nat) (h : as.length < 8)
    (hb : (m.readLE as).toNat < 256 ^ as.length) :
    (m.readLE (a :: as)).toNat = (m.read a).toNat + 256 * (m.readLE as).toNat := by
  have h1 : (m.readLE as).toNat < 2 ^ 56 := Nat.lt_of_lt_of_le hb (by
    rw [show (2 : Nat) ^ 56 = 256 ^ 7 by norm_num]; exact Nat.pow_le_pow_right (by norm_num) (by omega))
  have h2 : (m.read a).toNat < 2 ^ 8 := (m.read a).isLt
  simp only [Memory.readLE, BitVec.toNat_or, BitVec.toNat_shiftLeft, BitVec.toNat_setWidth]
  rw [Nat.mod_eq_of_lt (a := (m.read a).toNat) (by omega)]
  rw [Nat.mod_eq_of_lt (by rw [Nat.shiftLeft_eq]; omega)]
  rw [Nat.shiftLeft_eq, Nat.mul_comm, ← Nat.two_pow_add_eq_or_of_lt h2]
  omega

theorem Memory.readLE_lt (m : Memory) (pas : List Nat) (h : pas.length ≤ 8) :
    (m.readLE pas).toNat < 256 ^ pas.length := by
  induction pas with
  | nil => simp [Memory.readLE]
  | cons a as ih =>
    have h' : as.length < 8 := by simpa using h
    have := ih (by omega)
    rw [Memory.readLE_cons_toNat m a as h' this, List.length_cons, Nat.pow_succ]
    have h2 : (m.read a).toNat < 2 ^ 8 := (m.read a).isLt
    omega

end Sys2Proof.Machine
end

