-- ==== Sys2Proof/Laws/State.lean ====
section
/-! SUPPORT. One lemma for each field under each update of the state, so that no later proof unfolds an update; and the
register file read through each update. -/

namespace Sys2Proof.Machine

open Sys2Proof

theorem truncX_idem (x : Xlen) (v : Word) : truncX x (truncX x v) = truncX x v := by
  cases x <;> simp [truncX]

@[simp] theorem truncX_truncX (x : Xlen) (v : Word) : truncX x (truncX x v) = truncX x v := truncX_idem x v

@[simp] theorem truncX_zero (x : Xlen) : truncX x 0#64 = 0#64 := by cases x <;> rfl

@[simp] theorem npc_fits (s : State) (n : Nat) : truncX s.params.xlen (s.npc n) = s.npc n := truncX_idem _ _

/-! ### `setReg` -/

@[simp] theorem setReg_params (s : State) (r : Reg) (v : Word) : (s.setReg r v).params = s.params := by unfold State.setReg; split <;> rfl
@[simp] theorem setReg_pc (s : State) (r : Reg) (v : Word) : (s.setReg r v).pc = s.pc := by unfold State.setReg; split <;> rfl
@[simp] theorem setReg_priv (s : State) (r : Reg) (v : Word) : (s.setReg r v).priv = s.priv := by unfold State.setReg; split <;> rfl
@[simp] theorem setReg_resv (s : State) (r : Reg) (v : Word) : (s.setReg r v).resv = s.resv := by unfold State.setReg; split <;> rfl
@[simp] theorem setReg_haltRequested (s : State) (r : Reg) (v : Word) : (s.setReg r v).haltRequested = s.haltRequested := by unfold State.setReg; split <;> rfl
@[simp] theorem setReg_trapped (s : State) (r : Reg) (v : Word) : (s.setReg r v).trapped = s.trapped := by unfold State.setReg; split <;> rfl
@[simp] theorem setReg_tlb (s : State) (r : Reg) (v : Word) : (s.setReg r v).tlb = s.tlb := by unfold State.setReg; split <;> rfl
@[simp] theorem setReg_csr (s : State) (r : Reg) (v : Word) : (s.setReg r v).csr = s.csr := by unfold State.setReg; split <;> rfl
@[simp] theorem setReg_mem (s : State) (r : Reg) (v : Word) : (s.setReg r v).mem = s.mem := by unfold State.setReg; split <;> rfl

/-! ### `setPc` -/

@[simp] theorem setPc_params (s : State) (t : Word) : (s.setPc t).params = s.params := rfl
@[simp] theorem setPc_regs (s : State) (t : Word) : (s.setPc t).regs = s.regs := rfl
@[simp] theorem setPc_pc (s : State) (t : Word) : (s.setPc t).pc = truncX s.params.xlen t := rfl
@[simp] theorem setPc_priv (s : State) (t : Word) : (s.setPc t).priv = s.priv := rfl
@[simp] theorem setPc_resv (s : State) (t : Word) : (s.setPc t).resv = s.resv := rfl
@[simp] theorem setPc_haltRequested (s : State) (t : Word) : (s.setPc t).haltRequested = s.haltRequested := rfl
@[simp] theorem setPc_trapped (s : State) (t : Word) : (s.setPc t).trapped = s.trapped := rfl
@[simp] theorem setPc_tlb (s : State) (t : Word) : (s.setPc t).tlb = s.tlb := rfl
@[simp] theorem setPc_csr (s : State) (t : Word) : (s.setPc t).csr = s.csr := rfl
@[simp] theorem setPc_mem (s : State) (t : Word) : (s.setPc t).mem = s.mem := rfl

/-! ### `advance` -/

@[simp] theorem advance_params (s : State) (n : Nat) : (s.advance n).params = s.params := rfl
@[simp] theorem advance_regs (s : State) (n : Nat) : (s.advance n).regs = s.regs := rfl
@[simp] theorem advance_pc (s : State) (n : Nat) : (s.advance n).pc = s.npc n := npc_fits s n
@[simp] theorem advance_priv (s : State) (n : Nat) : (s.advance n).priv = s.priv := rfl
@[simp] theorem advance_resv (s : State) (n : Nat) : (s.advance n).resv = s.resv := rfl
@[simp] theorem advance_haltRequested (s : State) (n : Nat) : (s.advance n).haltRequested = s.haltRequested := rfl
@[simp] theorem advance_trapped (s : State) (n : Nat) : (s.advance n).trapped = s.trapped := rfl
@[simp] theorem advance_tlb (s : State) (n : Nat) : (s.advance n).tlb = s.tlb := rfl
@[simp] theorem advance_csr (s : State) (n : Nat) : (s.advance n).csr = s.csr := rfl
@[simp] theorem advance_mem (s : State) (n : Nat) : (s.advance n).mem = s.mem := rfl

/-! ### `clearResv` -/

@[simp] theorem clearResv_params (s : State) : (s.clearResv).params = s.params := rfl
@[simp] theorem clearResv_regs (s : State) : (s.clearResv).regs = s.regs := rfl
@[simp] theorem clearResv_pc (s : State) : (s.clearResv).pc = s.pc := rfl
@[simp] theorem clearResv_priv (s : State) : (s.clearResv).priv = s.priv := rfl
@[simp] theorem clearResv_resv (s : State) : (s.clearResv).resv = none := rfl
@[simp] theorem clearResv_haltRequested (s : State) : (s.clearResv).haltRequested = s.haltRequested := rfl
@[simp] theorem clearResv_trapped (s : State) : (s.clearResv).trapped = s.trapped := rfl
@[simp] theorem clearResv_tlb (s : State) : (s.clearResv).tlb = s.tlb := rfl
@[simp] theorem clearResv_csr (s : State) : (s.clearResv).csr = s.csr := rfl
@[simp] theorem clearResv_mem (s : State) : (s.clearResv).mem = s.mem := rfl

/-! ### `afterAccess` -/

@[simp] theorem afterAccess_params (s : State) (va : Word) (n : Nat) (it : Intent) : (s.afterAccess va n it).params = s.params := rfl
@[simp] theorem afterAccess_regs (s : State) (va : Word) (n : Nat) (it : Intent) : (s.afterAccess va n it).regs = s.regs := rfl
@[simp] theorem afterAccess_pc (s : State) (va : Word) (n : Nat) (it : Intent) : (s.afterAccess va n it).pc = s.pc := rfl
@[simp] theorem afterAccess_priv (s : State) (va : Word) (n : Nat) (it : Intent) : (s.afterAccess va n it).priv = s.priv := rfl
@[simp] theorem afterAccess_resv (s : State) (va : Word) (n : Nat) (it : Intent) : (s.afterAccess va n it).resv = s.resv := rfl
@[simp] theorem afterAccess_haltRequested (s : State) (va : Word) (n : Nat) (it : Intent) : (s.afterAccess va n it).haltRequested = s.haltRequested := rfl
@[simp] theorem afterAccess_trapped (s : State) (va : Word) (n : Nat) (it : Intent) : (s.afterAccess va n it).trapped = s.trapped := rfl
@[simp] theorem afterAccess_tlb (s : State) (va : Word) (n : Nat) (it : Intent) : (s.afterAccess va n it).tlb = s.accessTlb va n it := rfl
@[simp] theorem afterAccess_csr (s : State) (va : Word) (n : Nat) (it : Intent) : (s.afterAccess va n it).csr = s.csr := rfl
@[simp] theorem afterAccess_mem (s : State) (va : Word) (n : Nat) (it : Intent) : (s.afterAccess va n it).mem = s.mem := rfl

/-! ### `storeAt` -/

@[simp] theorem storeAt_params (s : State) (pas : List Nat) (v : Word) : (s.storeAt pas v).params = s.params := rfl
@[simp] theorem storeAt_regs (s : State) (pas : List Nat) (v : Word) : (s.storeAt pas v).regs = s.regs := rfl
@[simp] theorem storeAt_pc (s : State) (pas : List Nat) (v : Word) : (s.storeAt pas v).pc = s.pc := rfl
@[simp] theorem storeAt_priv (s : State) (pas : List Nat) (v : Word) : (s.storeAt pas v).priv = s.priv := rfl
@[simp] theorem storeAt_resv (s : State) (pas : List Nat) (v : Word) : (s.storeAt pas v).resv = s.resv := rfl
@[simp] theorem storeAt_haltRequested (s : State) (pas : List Nat) (v : Word) : (s.storeAt pas v).haltRequested = s.haltRequested := rfl
@[simp] theorem storeAt_trapped (s : State) (pas : List Nat) (v : Word) : (s.storeAt pas v).trapped = s.trapped := rfl
@[simp] theorem storeAt_tlb (s : State) (pas : List Nat) (v : Word) : (s.storeAt pas v).tlb = s.tlb := rfl
@[simp] theorem storeAt_csr (s : State) (pas : List Nat) (v : Word) : (s.storeAt pas v).csr = s.csr := rfl
@[simp] theorem storeAt_mem (s : State) (pas : List Nat) (v : Word) : (s.storeAt pas v).mem = s.mem.writeLE pas v := rfl

/-! ### `jumpHalt` -/

@[simp] theorem jumpHalt_params (s : State) : (s.jumpHalt).params = s.params := rfl
@[simp] theorem jumpHalt_regs (s : State) : (s.jumpHalt).regs = s.regs := rfl
@[simp] theorem jumpHalt_pc (s : State) : (s.jumpHalt).pc = s.pc := rfl
@[simp] theorem jumpHalt_priv (s : State) : (s.jumpHalt).priv = s.priv := rfl
@[simp] theorem jumpHalt_resv (s : State) : (s.jumpHalt).resv = s.resv := rfl
@[simp] theorem jumpHalt_haltRequested (s : State) : (s.jumpHalt).haltRequested = (s.haltRequested || (decide (s.pc = 0#64) && decide (s.reg 1#5 = 0#64))) := rfl
@[simp] theorem jumpHalt_trapped (s : State) : (s.jumpHalt).trapped = s.trapped := rfl
@[simp] theorem jumpHalt_tlb (s : State) : (s.jumpHalt).tlb = s.tlb := rfl
@[simp] theorem jumpHalt_csr (s : State) : (s.jumpHalt).csr = s.csr := rfl
@[simp] theorem jumpHalt_mem (s : State) : (s.jumpHalt).mem = s.mem := rfl

/-! ### `enterTrap` -/

@[simp] theorem enterTrap_params (s : State) (intr : Bool) (code : Nat) (tval : Word) (tg : TrapTarget) : (s.enterTrap intr code tval tg).params = s.params := rfl
@[simp] theorem enterTrap_regs (s : State) (intr : Bool) (code : Nat) (tval : Word) (tg : TrapTarget) : (s.enterTrap intr code tval tg).regs = s.regs := rfl
@[simp] theorem enterTrap_pc (s : State) (intr : Bool) (code : Nat) (tval : Word) (tg : TrapTarget) : (s.enterTrap intr code tval tg).pc = trapVector s.params (s.tvecOf tg) intr code := rfl
@[simp] theorem enterTrap_priv (s : State) (intr : Bool) (code : Nat) (tval : Word) (tg : TrapTarget) : (s.enterTrap intr code tval tg).priv = tg.priv := rfl
@[simp] theorem enterTrap_resv (s : State) (intr : Bool) (code : Nat) (tval : Word) (tg : TrapTarget) : (s.enterTrap intr code tval tg).resv = none := rfl
@[simp] theorem enterTrap_trapped (s : State) (intr : Bool) (code : Nat) (tval : Word) (tg : TrapTarget) : (s.enterTrap intr code tval tg).trapped = true := rfl
@[simp] theorem enterTrap_tlb (s : State) (intr : Bool) (code : Nat) (tval : Word) (tg : TrapTarget) : (s.enterTrap intr code tval tg).tlb = s.tlb := rfl
@[simp] theorem enterTrap_csr (s : State) (intr : Bool) (code : Nat) (tval : Word) (tg : TrapTarget) : (s.enterTrap intr code tval tg).csr = s.trapCsr intr code tval tg := rfl
@[simp] theorem enterTrap_mem (s : State) (intr : Bool) (code : Nat) (tval : Word) (tg : TrapTarget) : (s.enterTrap intr code tval tg).mem = s.mem := rfl

/-! ### `excState` -/

@[simp] theorem excState_params (s : State) (e : Exc) (tval : Word) : (s.excState e tval).params = s.params := rfl
@[simp] theorem excState_regs (s : State) (e : Exc) (tval : Word) : (s.excState e tval).regs = s.regs := rfl
@[simp] theorem excState_pc (s : State) (e : Exc) (tval : Word) : (s.excState e tval).pc = trapVector s.params (s.tvecOf (s.excTarget e)) false e.code := rfl
@[simp] theorem excState_priv (s : State) (e : Exc) (tval : Word) : (s.excState e tval).priv = (s.excTarget e).priv := rfl
@[simp] theorem excState_resv (s : State) (e : Exc) (tval : Word) : (s.excState e tval).resv = none := rfl
@[simp] theorem excState_trapped (s : State) (e : Exc) (tval : Word) : (s.excState e tval).trapped = true := rfl
@[simp] theorem excState_tlb (s : State) (e : Exc) (tval : Word) : (s.excState e tval).tlb = s.tlb := rfl
@[simp] theorem excState_csr (s : State) (e : Exc) (tval : Word) : (s.excState e tval).csr = s.trapCsr false e.code tval (s.excTarget e) := rfl
@[simp] theorem excState_mem (s : State) (e : Exc) (tval : Word) : (s.excState e tval).mem = s.mem := rfl

/-! ### `takeInterrupt` -/

@[simp] theorem takeInterrupt_params (s : State) (code : Nat) (tg : TrapTarget) : (s.takeInterrupt code tg).params = s.params := rfl
@[simp] theorem takeInterrupt_regs (s : State) (code : Nat) (tg : TrapTarget) : (s.takeInterrupt code tg).regs = s.regs := rfl
@[simp] theorem takeInterrupt_pc (s : State) (code : Nat) (tg : TrapTarget) : (s.takeInterrupt code tg).pc = trapVector s.params (s.tvecOf tg) true code := rfl
@[simp] theorem takeInterrupt_priv (s : State) (code : Nat) (tg : TrapTarget) : (s.takeInterrupt code tg).priv = tg.priv := rfl
@[simp] theorem takeInterrupt_resv (s : State) (code : Nat) (tg : TrapTarget) : (s.takeInterrupt code tg).resv = none := rfl
@[simp] theorem takeInterrupt_trapped (s : State) (code : Nat) (tg : TrapTarget) : (s.takeInterrupt code tg).trapped = true := rfl
@[simp] theorem takeInterrupt_tlb (s : State) (code : Nat) (tg : TrapTarget) : (s.takeInterrupt code tg).tlb = s.tlb := rfl
@[simp] theorem takeInterrupt_csr (s : State) (code : Nat) (tg : TrapTarget) : (s.takeInterrupt code tg).csr = s.trapCsr true code 0#64 tg := rfl
@[simp] theorem takeInterrupt_mem (s : State) (code : Nat) (tg : TrapTarget) : (s.takeInterrupt code tg).mem = s.mem := rfl

/-! ### `returnM` -/

@[simp] theorem returnM_params (s : State) : (s.returnM).params = s.params := rfl
@[simp] theorem returnM_regs (s : State) : (s.returnM).regs = s.regs := rfl
@[simp] theorem returnM_pc (s : State) : (s.returnM).pc = s.csr.mepc := rfl
@[simp] theorem returnM_priv (s : State) : (s.returnM).priv = s.csr.mstatus.mpp := rfl
@[simp] theorem returnM_resv (s : State) : (s.returnM).resv = none := rfl
@[simp] theorem returnM_haltRequested (s : State) : (s.returnM).haltRequested = s.haltRequested := rfl
@[simp] theorem returnM_trapped (s : State) : (s.returnM).trapped = s.trapped := rfl
@[simp] theorem returnM_tlb (s : State) : (s.returnM).tlb = s.tlb := rfl
@[simp] theorem returnM_mem (s : State) : (s.returnM).mem = s.mem := rfl

/-! ### `returnS` -/

@[simp] theorem returnS_params (s : State) : (s.returnS).params = s.params := rfl
@[simp] theorem returnS_regs (s : State) : (s.returnS).regs = s.regs := rfl
@[simp] theorem returnS_pc (s : State) : (s.returnS).pc = s.csr.sepc := rfl
@[simp] theorem returnS_priv (s : State) : (s.returnS).priv = (if s.csr.mstatus.spp then .s else .u) := rfl
@[simp] theorem returnS_resv (s : State) : (s.returnS).resv = none := rfl
@[simp] theorem returnS_haltRequested (s : State) : (s.returnS).haltRequested = s.haltRequested := rfl
@[simp] theorem returnS_trapped (s : State) : (s.returnS).trapped = s.trapped := rfl
@[simp] theorem returnS_tlb (s : State) : (s.returnS).tlb = s.tlb := rfl
@[simp] theorem returnS_mem (s : State) : (s.returnS).mem = s.mem := rfl

/-! ### `writeCsr` -/

@[simp] theorem writeCsr_params (s : State) (c : Csr) (v : Word) : (s.writeCsr c v).params = s.params := rfl
@[simp] theorem writeCsr_regs (s : State) (c : Csr) (v : Word) : (s.writeCsr c v).regs = s.regs := rfl
@[simp] theorem writeCsr_pc (s : State) (c : Csr) (v : Word) : (s.writeCsr c v).pc = s.pc := rfl
@[simp] theorem writeCsr_priv (s : State) (c : Csr) (v : Word) : (s.writeCsr c v).priv = s.priv := rfl
@[simp] theorem writeCsr_resv (s : State) (c : Csr) (v : Word) : (s.writeCsr c v).resv = s.resv := rfl
@[simp] theorem writeCsr_haltRequested (s : State) (c : Csr) (v : Word) : (s.writeCsr c v).haltRequested = s.haltRequested := rfl
@[simp] theorem writeCsr_trapped (s : State) (c : Csr) (v : Word) : (s.writeCsr c v).trapped = s.trapped := rfl
@[simp] theorem writeCsr_tlb (s : State) (c : Csr) (v : Word) : (s.writeCsr c v).tlb = s.tlb.afterCsrWrite c := rfl
@[simp] theorem writeCsr_csr (s : State) (c : Csr) (v : Word) : (s.writeCsr c v).csr = s.csr.write s.params (truncX s.params.xlen v) c := rfl
@[simp] theorem writeCsr_mem (s : State) (c : Csr) (v : Word) : (s.writeCsr c v).mem = s.mem := rfl

/-! ### `clearTrapped` -/

@[simp] theorem clearTrapped_params (s : State) : (s.clearTrapped).params = s.params := rfl
@[simp] theorem clearTrapped_regs (s : State) : (s.clearTrapped).regs = s.regs := rfl
@[simp] theorem clearTrapped_pc (s : State) : (s.clearTrapped).pc = s.pc := rfl
@[simp] theorem clearTrapped_priv (s : State) : (s.clearTrapped).priv = s.priv := rfl
@[simp] theorem clearTrapped_resv (s : State) : (s.clearTrapped).resv = s.resv := rfl
@[simp] theorem clearTrapped_haltRequested (s : State) : (s.clearTrapped).haltRequested = s.haltRequested := rfl
@[simp] theorem clearTrapped_trapped (s : State) : (s.clearTrapped).trapped = false := rfl
@[simp] theorem clearTrapped_tlb (s : State) : (s.clearTrapped).tlb = s.tlb := rfl
@[simp] theorem clearTrapped_csr (s : State) : (s.clearTrapped).csr = s.csr := rfl
@[simp] theorem clearTrapped_mem (s : State) : (s.clearTrapped).mem = s.mem := rfl

/-! ### `undoHits` -/

@[simp] theorem undoHits_params (s t : State) : (s.undoHits t).params = t.params := rfl
@[simp] theorem undoHits_regs (s t : State) : (s.undoHits t).regs = t.regs := rfl
@[simp] theorem undoHits_pc (s t : State) : (s.undoHits t).pc = t.pc := rfl
@[simp] theorem undoHits_priv (s t : State) : (s.undoHits t).priv = t.priv := rfl
@[simp] theorem undoHits_resv (s t : State) : (s.undoHits t).resv = t.resv := rfl
@[simp] theorem undoHits_haltRequested (s t : State) : (s.undoHits t).haltRequested = t.haltRequested := rfl
@[simp] theorem undoHits_trapped (s t : State) : (s.undoHits t).trapped = t.trapped := rfl
@[simp] theorem undoHits_tlb (s t : State) : (s.undoHits t).tlb = s.tlb.keepFills t.tlb := rfl
@[simp] theorem undoHits_csr (s t : State) : (s.undoHits t).csr = t.csr := rfl
@[simp] theorem undoHits_mem (s t : State) : (s.undoHits t).mem = t.mem := rfl

/-! ### Registers -/

@[simp] theorem reg_zero (s : State) : s.reg 0#5 = 0#64 := rfl

theorem reg_congr {s t : State} (h : t.regs = s.regs) (r : Reg) : t.reg r = s.reg r := by
  unfold State.reg; rw [h]

/-- What a register write does to every register: `x0` stays 0, the destination gets the value at XLEN bits. -/
theorem reg_setReg (s : State) (r q : Reg) (v : Word) :
    (s.setReg r v).reg q = if q = r ∧ r ≠ 0#5 then truncX s.params.xlen v else s.reg q := by
  unfold State.setReg State.reg
  by_cases hr : r = 0#5
  · simp [hr]
  · by_cases hq : q = r
    · subst hq; simp [hr]
    · have : r.toNat ≠ q.toNat := fun h => hq (BitVec.eq_of_toNat_eq h.symm)
      simp [hr, hq, this]

@[simp] theorem setReg_zero (s : State) (v : Word) : s.setReg 0#5 v = s := rfl

@[simp] theorem reg_setPc (s : State) (t : Word) (q : Reg) : (s.setPc t).reg q = s.reg q := rfl
@[simp] theorem reg_advance (s : State) (n : Nat) (q : Reg) : (s.advance n).reg q = s.reg q := rfl
@[simp] theorem reg_clearResv (s : State) (q : Reg) : (s.clearResv).reg q = s.reg q := rfl
@[simp] theorem reg_afterAccess (s : State) (va : Word) (n : Nat) (it : Intent) (q : Reg) : (s.afterAccess va n it).reg q = s.reg q := rfl
@[simp] theorem reg_storeAt (s : State) (pas : List Nat) (v : Word) (q : Reg) : (s.storeAt pas v).reg q = s.reg q := rfl
@[simp] theorem reg_jumpHalt (s : State) (q : Reg) : (s.jumpHalt).reg q = s.reg q := rfl
@[simp] theorem reg_enterTrap (s : State) (intr : Bool) (code : Nat) (tval : Word) (tg : TrapTarget) (q : Reg) : (s.enterTrap intr code tval tg).reg q = s.reg q := rfl
@[simp] theorem reg_excState (s : State) (e : Exc) (tval : Word) (q : Reg) : (s.excState e tval).reg q = s.reg q := rfl
@[simp] theorem reg_takeInterrupt (s : State) (code : Nat) (tg : TrapTarget) (q : Reg) : (s.takeInterrupt code tg).reg q = s.reg q := rfl
@[simp] theorem reg_clearTrapped (s : State) (q : Reg) : (s.clearTrapped).reg q = s.reg q := rfl
@[simp] theorem reg_undoHits (s t : State) (q : Reg) : (s.undoHits t).reg q = t.reg q := rfl
@[simp] theorem reg_returnM (s : State) (q : Reg) : (s.returnM).reg q = s.reg q := rfl
@[simp] theorem reg_returnS (s : State) (q : Reg) : (s.returnS).reg q = s.reg q := rfl
@[simp] theorem reg_writeCsr (s : State) (c : Csr) (v : Word) (q : Reg) : (s.writeCsr c v).reg q = s.reg q := rfl

end Sys2Proof.Machine
end

