-- ==== Sys2Proof/Laws/Exec.lean ====
section
/-! SUPPORT. What every instruction of one shape does, said once: `exec` of an instruction is one shared operation with
operands of that instruction. -/

namespace Sys2Proof.Machine

open Sys2Proof

/-! ### Each instruction is its shared operation -/

theorem exec_lui (rd : Reg) (imm : BitVec 20) (s : State) :
    exec (.lui rd imm) s = writeNext 4 rd (immU imm) s := rfl
theorem exec_auipc (rd : Reg) (imm : BitVec 20) (s : State) :
    exec (.auipc rd imm) s = writeNext 4 rd (s.pc + immU imm) s := rfl
theorem exec_addi (rd rs1 : Reg) (imm : BitVec 12) (s : State) :
    exec (.addi rd rs1 imm) s = immOp 4 addOp rd rs1 (imm12 imm) s := rfl
theorem exec_slti (rd rs1 : Reg) (imm : BitVec 12) (s : State) :
    exec (.slti rd rs1 imm) s = immOp 4 sltOp rd rs1 (imm12 imm) s := rfl
theorem exec_sltiu (rd rs1 : Reg) (imm : BitVec 12) (s : State) :
    exec (.sltiu rd rs1 imm) s = immOp 4 sltuOp rd rs1 (imm12 imm) s := rfl
theorem exec_xori (rd rs1 : Reg) (imm : BitVec 12) (s : State) :
    exec (.xori rd rs1 imm) s = immOp 4 xorOp rd rs1 (imm12 imm) s := rfl
theorem exec_ori (rd rs1 : Reg) (imm : BitVec 12) (s : State) :
    exec (.ori rd rs1 imm) s = immOp 4 orOp rd rs1 (imm12 imm) s := rfl
theorem exec_andi (rd rs1 : Reg) (imm : BitVec 12) (s : State) :
    exec (.andi rd rs1 imm) s = immOp 4 andOp rd rs1 (imm12 imm) s := rfl
theorem exec_slli (rd rs1 : Reg) (shamt : BitVec 6) (s : State) :
    exec (.slli rd rs1 shamt) s = immOp 4 sllOp rd rs1 (shamt.setWidth 64) s := rfl
theorem exec_srli (rd rs1 : Reg) (shamt : BitVec 6) (s : State) :
    exec (.srli rd rs1 shamt) s = immOp 4 srlOp rd rs1 (shamt.setWidth 64) s := rfl
theorem exec_srai (rd rs1 : Reg) (shamt : BitVec 6) (s : State) :
    exec (.srai rd rs1 shamt) s = immOp 4 sraOp rd rs1 (shamt.setWidth 64) s := rfl
theorem exec_add (rd rs1 rs2 : Reg) (s : State) : exec (.add rd rs1 rs2) s = regOp 4 addOp rd rs1 rs2 s := rfl
theorem exec_sub (rd rs1 rs2 : Reg) (s : State) : exec (.sub rd rs1 rs2) s = regOp 4 subOp rd rs1 rs2 s := rfl
theorem exec_sll (rd rs1 rs2 : Reg) (s : State) : exec (.sll rd rs1 rs2) s = regOp 4 sllOp rd rs1 rs2 s := rfl
theorem exec_slt (rd rs1 rs2 : Reg) (s : State) : exec (.slt rd rs1 rs2) s = regOp 4 sltOp rd rs1 rs2 s := rfl
theorem exec_sltu (rd rs1 rs2 : Reg) (s : State) :
    exec (.sltu rd rs1 rs2) s = regOp 4 sltuOp rd rs1 rs2 s := rfl
theorem exec_xor (rd rs1 rs2 : Reg) (s : State) : exec (.xor rd rs1 rs2) s = regOp 4 xorOp rd rs1 rs2 s := rfl
theorem exec_srl (rd rs1 rs2 : Reg) (s : State) : exec (.srl rd rs1 rs2) s = regOp 4 srlOp rd rs1 rs2 s := rfl
theorem exec_sra (rd rs1 rs2 : Reg) (s : State) : exec (.sra rd rs1 rs2) s = regOp 4 sraOp rd rs1 rs2 s := rfl
theorem exec_or (rd rs1 rs2 : Reg) (s : State) : exec (.or rd rs1 rs2) s = regOp 4 orOp rd rs1 rs2 s := rfl
theorem exec_and (rd rs1 rs2 : Reg) (s : State) : exec (.and rd rs1 rs2) s = regOp 4 andOp rd rs1 rs2 s := rfl
theorem exec_addiw (rd rs1 : Reg) (imm : BitVec 12) (s : State) :
    exec (.addiw rd rs1 imm) s = immOpW 4 addOp rd rs1 (imm12 imm) s := rfl
theorem exec_slliw (rd rs1 : Reg) (shamt : BitVec 5) (s : State) :
    exec (.slliw rd rs1 shamt) s = immOpW 4 sllOp rd rs1 (shamt.setWidth 64) s := rfl
theorem exec_srliw (rd rs1 : Reg) (shamt : BitVec 5) (s : State) :
    exec (.srliw rd rs1 shamt) s = immOpW 4 srlOp rd rs1 (shamt.setWidth 64) s := rfl
theorem exec_sraiw (rd rs1 : Reg) (shamt : BitVec 5) (s : State) :
    exec (.sraiw rd rs1 shamt) s = immOpW 4 sraOp rd rs1 (shamt.setWidth 64) s := rfl
theorem exec_addw (rd rs1 rs2 : Reg) (s : State) :
    exec (.addw rd rs1 rs2) s = regOpW 4 addOp rd rs1 rs2 s := rfl
theorem exec_subw (rd rs1 rs2 : Reg) (s : State) :
    exec (.subw rd rs1 rs2) s = regOpW 4 subOp rd rs1 rs2 s := rfl
theorem exec_sllw (rd rs1 rs2 : Reg) (s : State) :
    exec (.sllw rd rs1 rs2) s = regOpW 4 sllOp rd rs1 rs2 s := rfl
theorem exec_srlw (rd rs1 rs2 : Reg) (s : State) :
    exec (.srlw rd rs1 rs2) s = regOpW 4 srlOp rd rs1 rs2 s := rfl
theorem exec_sraw (rd rs1 rs2 : Reg) (s : State) :
    exec (.sraw rd rs1 rs2) s = regOpW 4 sraOp rd rs1 rs2 s := rfl
theorem exec_mul (rd rs1 rs2 : Reg) (s : State) : exec (.mul rd rs1 rs2) s = regOp 4 mulOp rd rs1 rs2 s := rfl
theorem exec_mulh (rd rs1 rs2 : Reg) (s : State) :
    exec (.mulh rd rs1 rs2) s = regOp 4 mulhOp rd rs1 rs2 s := rfl
theorem exec_mulhsu (rd rs1 rs2 : Reg) (s : State) :
    exec (.mulhsu rd rs1 rs2) s = regOp 4 mulhsuOp rd rs1 rs2 s := rfl
theorem exec_mulhu (rd rs1 rs2 : Reg) (s : State) :
    exec (.mulhu rd rs1 rs2) s = regOp 4 mulhuOp rd rs1 rs2 s := rfl
theorem exec_div (rd rs1 rs2 : Reg) (s : State) : exec (.div rd rs1 rs2) s = regOp 4 divOp rd rs1 rs2 s := rfl
theorem exec_divu (rd rs1 rs2 : Reg) (s : State) :
    exec (.divu rd rs1 rs2) s = regOp 4 divuOp rd rs1 rs2 s := rfl
theorem exec_rem (rd rs1 rs2 : Reg) (s : State) : exec (.rem rd rs1 rs2) s = regOp 4 remOp rd rs1 rs2 s := rfl
theorem exec_remu (rd rs1 rs2 : Reg) (s : State) :
    exec (.remu rd rs1 rs2) s = regOp 4 remuOp rd rs1 rs2 s := rfl
theorem exec_mulw (rd rs1 rs2 : Reg) (s : State) :
    exec (.mulw rd rs1 rs2) s = regOpW 4 mulOp rd rs1 rs2 s := rfl
theorem exec_divw (rd rs1 rs2 : Reg) (s : State) :
    exec (.divw rd rs1 rs2) s = regOpW 4 divOp rd rs1 rs2 s := rfl
theorem exec_divuw (rd rs1 rs2 : Reg) (s : State) :
    exec (.divuw rd rs1 rs2) s = regOpW 4 divuOp rd rs1 rs2 s := rfl
theorem exec_remw (rd rs1 rs2 : Reg) (s : State) :
    exec (.remw rd rs1 rs2) s = regOpW 4 remOp rd rs1 rs2 s := rfl
theorem exec_remuw (rd rs1 rs2 : Reg) (s : State) :
    exec (.remuw rd rs1 rs2) s = regOpW 4 remuOp rd rs1 rs2 s := rfl
theorem exec_jal (rd : Reg) (imm : BitVec 20) (s : State) :
    exec (.jal rd imm) s = jumpRel 4 rd (immJ imm) s := rfl
theorem exec_jalr (rd rs1 : Reg) (imm : BitVec 12) (s : State) :
    exec (.jalr rd rs1 imm) s = jumpReg 4 rd rs1 (imm12 imm) s := rfl
theorem exec_beq (rs1 rs2 : Reg) (imm : BitVec 12) (s : State) :
    exec (.beq rs1 rs2 imm) s = branchIf 4 (s.compare eqBits rs1 rs2) (immB imm) s := rfl
theorem exec_bne (rs1 rs2 : Reg) (imm : BitVec 12) (s : State) :
    exec (.bne rs1 rs2 imm) s = branchIf 4 (!s.compare eqBits rs1 rs2) (immB imm) s := rfl
theorem exec_blt (rs1 rs2 : Reg) (imm : BitVec 12) (s : State) :
    exec (.blt rs1 rs2 imm) s = branchIf 4 (s.compare ltSigned rs1 rs2) (immB imm) s := rfl
theorem exec_bge (rs1 rs2 : Reg) (imm : BitVec 12) (s : State) :
    exec (.bge rs1 rs2 imm) s = branchIf 4 (!s.compare ltSigned rs1 rs2) (immB imm) s := rfl
theorem exec_bltu (rs1 rs2 : Reg) (imm : BitVec 12) (s : State) :
    exec (.bltu rs1 rs2 imm) s = branchIf 4 (s.compare ltUnsigned rs1 rs2) (immB imm) s := rfl
theorem exec_bgeu (rs1 rs2 : Reg) (imm : BitVec 12) (s : State) :
    exec (.bgeu rs1 rs2 imm) s = branchIf 4 (!s.compare ltUnsigned rs1 rs2) (immB imm) s := rfl
theorem exec_lb (rd rs1 : Reg) (imm : BitVec 12) (s : State) :
    exec (.lb rd rs1 imm) s = loadOp 4 1 (sextFrom 8) rd rs1 (imm12 imm) s := rfl
theorem exec_lh (rd rs1 : Reg) (imm : BitVec 12) (s : State) :
    exec (.lh rd rs1 imm) s = loadOp 4 2 (sextFrom 16) rd rs1 (imm12 imm) s := rfl
theorem exec_lw (rd rs1 : Reg) (imm : BitVec 12) (s : State) :
    exec (.lw rd rs1 imm) s = loadOp 4 4 (sextFrom 32) rd rs1 (imm12 imm) s := rfl
theorem exec_ld (rd rs1 : Reg) (imm : BitVec 12) (s : State) :
    exec (.ld rd rs1 imm) s = loadOp 4 8 id rd rs1 (imm12 imm) s := rfl
theorem exec_lbu (rd rs1 : Reg) (imm : BitVec 12) (s : State) :
    exec (.lbu rd rs1 imm) s = loadOp 4 1 (zextFrom 8) rd rs1 (imm12 imm) s := rfl
theorem exec_lhu (rd rs1 : Reg) (imm : BitVec 12) (s : State) :
    exec (.lhu rd rs1 imm) s = loadOp 4 2 (zextFrom 16) rd rs1 (imm12 imm) s := rfl
theorem exec_lwu (rd rs1 : Reg) (imm : BitVec 12) (s : State) :
    exec (.lwu rd rs1 imm) s = loadOp 4 4 (zextFrom 32) rd rs1 (imm12 imm) s := rfl
theorem exec_sb (rs1 rs2 : Reg) (imm : BitVec 12) (s : State) :
    exec (.sb rs1 rs2 imm) s = storeOp 4 1 rs1 rs2 (imm12 imm) s := rfl
theorem exec_sh (rs1 rs2 : Reg) (imm : BitVec 12) (s : State) :
    exec (.sh rs1 rs2 imm) s = storeOp 4 2 rs1 rs2 (imm12 imm) s := rfl
theorem exec_sw (rs1 rs2 : Reg) (imm : BitVec 12) (s : State) :
    exec (.sw rs1 rs2 imm) s = storeOp 4 4 rs1 rs2 (imm12 imm) s := rfl
theorem exec_sd (rs1 rs2 : Reg) (imm : BitVec 12) (s : State) :
    exec (.sd rs1 rs2 imm) s = storeOp 4 8 rs1 rs2 (imm12 imm) s := rfl
theorem exec_lrW (_aq _rl : Bool) (rd rs1 : Reg) (s : State) :
    exec (.lrW _aq _rl rd rs1) s = lrOp .word rd rs1 s := rfl
theorem exec_lrD (_aq _rl : Bool) (rd rs1 : Reg) (s : State) :
    exec (.lrD _aq _rl rd rs1) s = lrOp .double rd rs1 s := rfl
theorem exec_scW (_aq _rl : Bool) (rd rs1 rs2 : Reg) (s : State) :
    exec (.scW _aq _rl rd rs1 rs2) s = scOp .word rd rs1 rs2 s := rfl
theorem exec_scD (_aq _rl : Bool) (rd rs1 rs2 : Reg) (s : State) :
    exec (.scD _aq _rl rd rs1 rs2) s = scOp .double rd rs1 rs2 s := rfl
theorem exec_amoswapW (_aq _rl : Bool) (rd rs1 rs2 : Reg) (s : State) :
    exec (.amoswapW _aq _rl rd rs1 rs2) s = amoOp .word swapOp rd rs1 rs2 s := rfl
theorem exec_amoswapD (_aq _rl : Bool) (rd rs1 rs2 : Reg) (s : State) :
    exec (.amoswapD _aq _rl rd rs1 rs2) s = amoOp .double swapOp rd rs1 rs2 s := rfl
theorem exec_amoaddW (_aq _rl : Bool) (rd rs1 rs2 : Reg) (s : State) :
    exec (.amoaddW _aq _rl rd rs1 rs2) s = amoOp .word addOp rd rs1 rs2 s := rfl
theorem exec_amoaddD (_aq _rl : Bool) (rd rs1 rs2 : Reg) (s : State) :
    exec (.amoaddD _aq _rl rd rs1 rs2) s = amoOp .double addOp rd rs1 rs2 s := rfl
theorem exec_amoxorW (_aq _rl : Bool) (rd rs1 rs2 : Reg) (s : State) :
    exec (.amoxorW _aq _rl rd rs1 rs2) s = amoOp .word xorOp rd rs1 rs2 s := rfl
theorem exec_amoxorD (_aq _rl : Bool) (rd rs1 rs2 : Reg) (s : State) :
    exec (.amoxorD _aq _rl rd rs1 rs2) s = amoOp .double xorOp rd rs1 rs2 s := rfl
theorem exec_amoandW (_aq _rl : Bool) (rd rs1 rs2 : Reg) (s : State) :
    exec (.amoandW _aq _rl rd rs1 rs2) s = amoOp .word andOp rd rs1 rs2 s := rfl
theorem exec_amoandD (_aq _rl : Bool) (rd rs1 rs2 : Reg) (s : State) :
    exec (.amoandD _aq _rl rd rs1 rs2) s = amoOp .double andOp rd rs1 rs2 s := rfl
theorem exec_amoorW (_aq _rl : Bool) (rd rs1 rs2 : Reg) (s : State) :
    exec (.amoorW _aq _rl rd rs1 rs2) s = amoOp .word orOp rd rs1 rs2 s := rfl
theorem exec_amoorD (_aq _rl : Bool) (rd rs1 rs2 : Reg) (s : State) :
    exec (.amoorD _aq _rl rd rs1 rs2) s = amoOp .double orOp rd rs1 rs2 s := rfl
theorem exec_amominW (_aq _rl : Bool) (rd rs1 rs2 : Reg) (s : State) :
    exec (.amominW _aq _rl rd rs1 rs2) s = amoOp .word minOp rd rs1 rs2 s := rfl
theorem exec_amominD (_aq _rl : Bool) (rd rs1 rs2 : Reg) (s : State) :
    exec (.amominD _aq _rl rd rs1 rs2) s = amoOp .double minOp rd rs1 rs2 s := rfl
theorem exec_amomaxW (_aq _rl : Bool) (rd rs1 rs2 : Reg) (s : State) :
    exec (.amomaxW _aq _rl rd rs1 rs2) s = amoOp .word maxOp rd rs1 rs2 s := rfl
theorem exec_amomaxD (_aq _rl : Bool) (rd rs1 rs2 : Reg) (s : State) :
    exec (.amomaxD _aq _rl rd rs1 rs2) s = amoOp .double maxOp rd rs1 rs2 s := rfl
theorem exec_amominuW (_aq _rl : Bool) (rd rs1 rs2 : Reg) (s : State) :
    exec (.amominuW _aq _rl rd rs1 rs2) s = amoOp .word minuOp rd rs1 rs2 s := rfl
theorem exec_amominuD (_aq _rl : Bool) (rd rs1 rs2 : Reg) (s : State) :
    exec (.amominuD _aq _rl rd rs1 rs2) s = amoOp .double minuOp rd rs1 rs2 s := rfl
theorem exec_amomaxuW (_aq _rl : Bool) (rd rs1 rs2 : Reg) (s : State) :
    exec (.amomaxuW _aq _rl rd rs1 rs2) s = amoOp .word maxuOp rd rs1 rs2 s := rfl
theorem exec_amomaxuD (_aq _rl : Bool) (rd rs1 rs2 : Reg) (s : State) :
    exec (.amomaxuD _aq _rl rd rs1 rs2) s = amoOp .double maxuOp rd rs1 rs2 s := rfl
theorem exec_csrrw (rd rs1 : Reg) (csr : CsrIndex) (s : State) :
    exec (.csrrw rd rs1 csr) s = csrOp (.csrrw rd rs1 csr) rd csr true (fun _ => s.reg rs1) s := rfl
theorem exec_csrrs (rd rs1 : Reg) (csr : CsrIndex) (s : State) :
    exec (.csrrs rd rs1 csr) s = csrOp (.csrrs rd rs1 csr) rd csr (decide (rs1 ≠ 0#5)) (fun old => old ||| s.reg rs1) s := rfl
theorem exec_csrrc (rd rs1 : Reg) (csr : CsrIndex) (s : State) :
    exec (.csrrc rd rs1 csr) s = csrOp (.csrrc rd rs1 csr) rd csr (decide (rs1 ≠ 0#5)) (fun old => old &&& ~~~s.reg rs1) s := rfl
theorem exec_csrrwi (rd : Reg) (uimm : BitVec 5) (csr : CsrIndex) (s : State) :
    exec (.csrrwi rd uimm csr) s = csrOp (.csrrwi rd uimm csr) rd csr true (fun _ => uimm5 uimm) s := rfl
theorem exec_csrrsi (rd : Reg) (uimm : BitVec 5) (csr : CsrIndex) (s : State) :
    exec (.csrrsi rd uimm csr) s = csrOp (.csrrsi rd uimm csr) rd csr (decide (uimm ≠ 0#5)) (fun old => old ||| uimm5 uimm) s := rfl
theorem exec_csrrci (rd : Reg) (uimm : BitVec 5) (csr : CsrIndex) (s : State) :
    exec (.csrrci rd uimm csr) s = csrOp (.csrrci rd uimm csr) rd csr (decide (uimm ≠ 0#5)) (fun old => old &&& ~~~uimm5 uimm) s := rfl
theorem exec_fence (_fm _pred _succ : BitVec 4) (_rs1 _rd : Reg) (s : State) :
    exec (.fence _fm _pred _succ _rs1 _rd) s = .next (s.advance 4) := rfl
theorem exec_fenceI (_imm : BitVec 12) (_rs1 _rd : Reg) (s : State) :
    exec (.fenceI _imm _rs1 _rd) s = .next (s.advance 4) := rfl
theorem exec_ecall (s : State) : exec .ecall s = ecallOp s := rfl
theorem exec_ebreak (s : State) : exec .ebreak s = ebreakOp s := rfl
theorem exec_sret (s : State) : exec .sret s = privileged .s .sret (.next s.returnS) s := rfl
theorem exec_mret (s : State) : exec .mret s = privileged .m .mret (.next s.returnM) s := rfl
theorem exec_wfi (s : State) : exec .wfi s = privileged .s .wfi (.next (s.advance 4)) s := rfl
theorem exec_sfenceVma (rs1 rs2 : Reg) (s : State) :
    exec (.sfenceVma rs1 rs2) s = privileged .s (.sfenceVma rs1 rs2) (.next ({ s with tlb := s.tlb.invalidate (sfenceSelects s rs1 rs2) }.advance 4)) s := rfl
theorem exec_cAddi4spn (rd : CReg) (uimm : BitVec 8) (s : State) :
    exec (.cAddi4spn rd uimm) s = immOp 2 addOp (CReg.reg rd) 2#5 (uimmC4spn uimm) s := rfl
theorem exec_cFld (rd rs1 : CReg) (uimm : BitVec 5) (s : State) :
    exec (.cFld rd rs1 uimm) s = noFpu (.cFld rd rs1 uimm) s := rfl
theorem exec_cLw (rd rs1 : CReg) (uimm : BitVec 5) (s : State) :
    exec (.cLw rd rs1 uimm) s = loadOp 2 4 (sextFrom 32) (CReg.reg rd) (CReg.reg rs1) (uimmCW uimm) s := rfl
theorem exec_cFlw (rd rs1 : CReg) (uimm : BitVec 5) (s : State) :
    exec (.cFlw rd rs1 uimm) s = noFpu (.cFlw rd rs1 uimm) s := rfl
theorem exec_cLd (rd rs1 : CReg) (uimm : BitVec 5) (s : State) :
    exec (.cLd rd rs1 uimm) s = loadOp 2 8 id (CReg.reg rd) (CReg.reg rs1) (uimmCD uimm) s := rfl
theorem exec_cFsd (rs1 rs2 : CReg) (uimm : BitVec 5) (s : State) :
    exec (.cFsd rs1 rs2 uimm) s = noFpu (.cFsd rs1 rs2 uimm) s := rfl
theorem exec_cSw (rs1 rs2 : CReg) (uimm : BitVec 5) (s : State) :
    exec (.cSw rs1 rs2 uimm) s = storeOp 2 4 (CReg.reg rs1) (CReg.reg rs2) (uimmCW uimm) s := rfl
theorem exec_cFsw (rs1 rs2 : CReg) (uimm : BitVec 5) (s : State) :
    exec (.cFsw rs1 rs2 uimm) s = noFpu (.cFsw rs1 rs2 uimm) s := rfl
theorem exec_cSd (rs1 rs2 : CReg) (uimm : BitVec 5) (s : State) :
    exec (.cSd rs1 rs2 uimm) s = storeOp 2 8 (CReg.reg rs1) (CReg.reg rs2) (uimmCD uimm) s := rfl
theorem exec_cNop (_imm : BitVec 6) (s : State) : exec (.cNop _imm) s = .next (s.advance 2) := rfl
theorem exec_cAddi (rd : Reg) (imm : BitVec 6) (s : State) :
    exec (.cAddi rd imm) s = immOp 2 addOp rd rd (imm6 imm) s := rfl
theorem exec_cJal (imm : BitVec 11) (s : State) : exec (.cJal imm) s = jumpRel 2 1#5 (immCJ imm) s := rfl
theorem exec_cAddiw (rd : Reg) (imm : BitVec 6) (s : State) :
    exec (.cAddiw rd imm) s = immOpW 2 addOp rd rd (imm6 imm) s := rfl
theorem exec_cLi (rd : Reg) (imm : BitVec 6) (s : State) :
    exec (.cLi rd imm) s = writeNext 2 rd (imm6 imm) s := rfl
theorem exec_cAddi16sp (imm : BitVec 6) (s : State) :
    exec (.cAddi16sp imm) s = immOp 2 addOp 2#5 2#5 (immC16sp imm) s := rfl
theorem exec_cLui (rd : Reg) (imm : BitVec 6) (s : State) :
    exec (.cLui rd imm) s = writeNext 2 rd (immCLui imm) s := rfl
theorem exec_cSrli (rd : CReg) (shamt : BitVec 6) (s : State) :
    exec (.cSrli rd shamt) s = immOp 2 srlOp (CReg.reg rd) (CReg.reg rd) (shamt.setWidth 64) s := rfl
theorem exec_cSrai (rd : CReg) (shamt : BitVec 6) (s : State) :
    exec (.cSrai rd shamt) s = immOp 2 sraOp (CReg.reg rd) (CReg.reg rd) (shamt.setWidth 64) s := rfl
theorem exec_cAndi (rd : CReg) (imm : BitVec 6) (s : State) :
    exec (.cAndi rd imm) s = immOp 2 andOp (CReg.reg rd) (CReg.reg rd) (imm6 imm) s := rfl
theorem exec_cSub (rd rs2 : CReg) (s : State) :
    exec (.cSub rd rs2) s = regOp 2 subOp (CReg.reg rd) (CReg.reg rd) (CReg.reg rs2) s := rfl
theorem exec_cXor (rd rs2 : CReg) (s : State) :
    exec (.cXor rd rs2) s = regOp 2 xorOp (CReg.reg rd) (CReg.reg rd) (CReg.reg rs2) s := rfl
theorem exec_cOr (rd rs2 : CReg) (s : State) :
    exec (.cOr rd rs2) s = regOp 2 orOp (CReg.reg rd) (CReg.reg rd) (CReg.reg rs2) s := rfl
theorem exec_cAnd (rd rs2 : CReg) (s : State) :
    exec (.cAnd rd rs2) s = regOp 2 andOp (CReg.reg rd) (CReg.reg rd) (CReg.reg rs2) s := rfl
theorem exec_cSubw (rd rs2 : CReg) (s : State) :
    exec (.cSubw rd rs2) s = regOpW 2 subOp (CReg.reg rd) (CReg.reg rd) (CReg.reg rs2) s := rfl
theorem exec_cAddw (rd rs2 : CReg) (s : State) :
    exec (.cAddw rd rs2) s = regOpW 2 addOp (CReg.reg rd) (CReg.reg rd) (CReg.reg rs2) s := rfl
theorem exec_cJ (imm : BitVec 11) (s : State) : exec (.cJ imm) s = jumpRel 2 0#5 (immCJ imm) s := rfl
theorem exec_cBeqz (rs1 : CReg) (imm : BitVec 8) (s : State) :
    exec (.cBeqz rs1 imm) s = branchIf 2 (s.compare eqBits (CReg.reg rs1) 0#5) (immCB imm) s := rfl
theorem exec_cBnez (rs1 : CReg) (imm : BitVec 8) (s : State) :
    exec (.cBnez rs1 imm) s = branchIf 2 (!s.compare eqBits (CReg.reg rs1) 0#5) (immCB imm) s := rfl
theorem exec_cSlli (rd : Reg) (shamt : BitVec 6) (s : State) :
    exec (.cSlli rd shamt) s = immOp 2 sllOp rd rd (shamt.setWidth 64) s := rfl
theorem exec_cFldsp (rd : Reg) (uimm : BitVec 6) (s : State) :
    exec (.cFldsp rd uimm) s = noFpu (.cFldsp rd uimm) s := rfl
theorem exec_cLwsp (rd : Reg) (uimm : BitVec 6) (s : State) :
    exec (.cLwsp rd uimm) s = loadOp 2 4 (sextFrom 32) rd 2#5 (uimmCWsp uimm) s := rfl
theorem exec_cFlwsp (rd : Reg) (uimm : BitVec 6) (s : State) :
    exec (.cFlwsp rd uimm) s = noFpu (.cFlwsp rd uimm) s := rfl
theorem exec_cLdsp (rd : Reg) (uimm : BitVec 6) (s : State) :
    exec (.cLdsp rd uimm) s = loadOp 2 8 id rd 2#5 (uimmCDsp uimm) s := rfl
theorem exec_cJr (rs1 : Reg) (s : State) : exec (.cJr rs1) s = jumpReg 2 0#5 rs1 0#64 s := rfl
theorem exec_cMv (rd rs2 : Reg) (s : State) : exec (.cMv rd rs2) s = writeNext 2 rd (s.reg rs2) s := rfl
theorem exec_cEbreak (s : State) : exec .cEbreak s = ebreakOp s := rfl
theorem exec_cJalr (rs1 : Reg) (s : State) : exec (.cJalr rs1) s = jumpReg 2 1#5 rs1 0#64 s := rfl
theorem exec_cAdd (rd rs2 : Reg) (s : State) : exec (.cAdd rd rs2) s = regOp 2 addOp rd rd rs2 s := rfl
theorem exec_cFsdsp (rs2 : Reg) (uimm : BitVec 6) (s : State) :
    exec (.cFsdsp rs2 uimm) s = noFpu (.cFsdsp rs2 uimm) s := rfl
theorem exec_cSwsp (rs2 : Reg) (uimm : BitVec 6) (s : State) :
    exec (.cSwsp rs2 uimm) s = storeOp 2 4 2#5 rs2 (uimmCWsp uimm) s := rfl
theorem exec_cFswsp (rs2 : Reg) (uimm : BitVec 6) (s : State) :
    exec (.cFswsp rs2 uimm) s = noFpu (.cFswsp rs2 uimm) s := rfl
theorem exec_cSdsp (rs2 : Reg) (uimm : BitVec 6) (s : State) :
    exec (.cSdsp rs2 uimm) s = storeOp 2 8 2#5 rs2 (uimmCDsp uimm) s := rfl

/-! ### Each shape -/

theorem exec_compute {i : Instr} (h : i.shape = .compute) (s : State) :
    ∃ v, exec i s = writeNext (encode i).ilen i.dest v s := by
  cases i <;> first | exact Shape.noConfusion h | exact ⟨_, rfl⟩ | exact ⟨0#64, rfl⟩

theorem truncX_bit0 (x : Xlen) (v : Word) : (truncX x v).getLsbD 0 = v.getLsbD 0 := by
  cases x <;> simp [truncX]

/-- The sum of two even cells is even. -/
theorem add_even {a b : Word} (ha : a.getLsbD 0 = false) (hb : b.getLsbD 0 = false) : (a + b).getLsbD 0 = false := by
  have := a.isLt; have := b.isLt
  simp only [BitVec.getLsbD, Nat.testBit_zero, decide_eq_false_iff_not, BitVec.toNat_add] at *
  omega

/-- The immediates of the jumps and branches are even (R224, R241). -/
theorem append_even {n : Nat} (i : BitVec n) : ((i ++ 0#1).signExtend 64).getLsbD 0 = false := by
  rw [BitVec.getLsbD_signExtend, BitVec.getLsbD_append]; simp

theorem clear_even (a : Word) : (a &&& ~~~1#64).getLsbD 0 = false := by
  rw [BitVec.getLsbD_and]; simp

/-- A jump goes to one target, even where the pc is even. -/
theorem exec_jump {i : Instr} (h : i.shape = .jump) (s : State) :
    ∃ t, (s.pc.getLsbD 0 = false → t.getLsbD 0 = false) ∧ exec i s = jumpTo (encode i).ilen i.dest t s := by
  have rel : ∀ off, off.getLsbD 0 = false → s.pc.getLsbD 0 = false → (s.pcRel off).getLsbD 0 = false :=
    fun off ho hp => (truncX_bit0 _ _).trans (add_even hp ho)
  cases i
  case jal rd imm => exact ⟨s.pcRel (immJ imm), rel _ (append_even imm), rfl⟩
  case jalr rd rs1 imm => exact ⟨s.addr rs1 (imm12 imm) &&& ~~~1#64, fun _ => clear_even _, rfl⟩
  case cJ imm => exact ⟨s.pcRel (immCJ imm), rel _ (append_even imm), rfl⟩
  case cJal imm => exact ⟨s.pcRel (immCJ imm), rel _ (append_even imm), rfl⟩
  case cJr rs1 => exact ⟨s.addr rs1 0#64 &&& ~~~1#64, fun _ => clear_even _, rfl⟩
  case cJalr rs1 => exact ⟨s.addr rs1 0#64 &&& ~~~1#64, fun _ => clear_even _, rfl⟩
  all_goals exact Shape.noConfusion h

theorem exec_branch {i : Instr} (h : i.shape = .branch) (s : State) :
    ∃ taken off, off.getLsbD 0 = false ∧ exec i s = branchIf (encode i).ilen taken off s := by
  cases i <;> first | exact Shape.noConfusion h | exact ⟨_, _, append_even _, rfl⟩

theorem exec_load {i : Instr} (h : i.shape = .load) (s : State) :
    ∃ n ext rs1 off, n ∈ [1, 2, 4, 8] ∧ i.dataAccess s = some (s.addr rs1 off, n, .load)
      ∧ exec i s = loadOp (encode i).ilen n ext i.dest rs1 off s := by
  cases i <;> first | exact Shape.noConfusion h | exact ⟨_, _, _, _, by decide, rfl, rfl⟩

theorem exec_store {i : Instr} (h : i.shape = .store) (s : State) :
    ∃ n rs1 rs2 off, n ∈ [1, 2, 4, 8] ∧ i.dataAccess s = some (s.addr rs1 off, n, .store) ∧ i.dest = 0#5
      ∧ exec i s = storeOp (encode i).ilen n rs1 rs2 off s := by
  cases i <;> first | exact Shape.noConfusion h | exact ⟨_, _, _, _, by decide, rfl, rfl, rfl⟩

theorem exec_lr {i : Instr} (h : i.shape = .lr) (s : State) :
    ∃ g rs1, i.dataAccess s = some (s.reg rs1, Granule.bytes g, .load) ∧ exec i s = lrOp g i.dest rs1 s := by
  cases i <;> first | exact Shape.noConfusion h | exact ⟨.word, _, rfl, rfl⟩ | exact ⟨.double, _, rfl, rfl⟩

theorem exec_sc {i : Instr} (h : i.shape = .sc) (s : State) :
    ∃ g rs1 rs2, i.dataAccess s = (if s.resv = some { addr := s.reg rs1, size := g } then
        some (s.reg rs1, Granule.bytes g, .store) else none) ∧ exec i s = scOp g i.dest rs1 rs2 s := by
  cases i <;> first | exact Shape.noConfusion h | exact ⟨.word, _, _, rfl, rfl⟩ | exact ⟨.double, _, _, rfl, rfl⟩

theorem exec_amo {i : Instr} (h : i.shape = .amo) (s : State) :
    ∃ (g : Granule) (f : {w : Nat} → BitVec w → BitVec w → BitVec w) (rs1 rs2 : Reg),
      i.dataAccess s = some (s.reg rs1, g.bytes, .store) ∧ exec i s = amoOp g f i.dest rs1 rs2 s := by
  cases i <;> first | exact Shape.noConfusion h | exact ⟨.word, _, _, _, rfl, rfl⟩ | exact ⟨.double, _, _, _, rfl, rfl⟩

theorem exec_csr {i : Instr} (h : i.shape = .csr) (s : State) :
    ∃ csr writes new, CsrForm i csr ∧ exec i s = csrOp i i.dest csr writes new s := by
  cases i
  case csrrw rd rs1 csr => exact ⟨csr, true, fun _ => s.reg rs1, by constructor, rfl⟩
  case csrrs rd rs1 csr => exact ⟨csr, decide (rs1 ≠ 0#5), fun old => old ||| s.reg rs1, by constructor, rfl⟩
  case csrrc rd rs1 csr => exact ⟨csr, decide (rs1 ≠ 0#5), fun old => old &&& ~~~s.reg rs1, by constructor, rfl⟩
  case csrrwi rd uimm csr => exact ⟨csr, true, fun _ => uimm5 uimm, by constructor, rfl⟩
  case csrrsi rd uimm csr => exact ⟨csr, decide (uimm ≠ 0#5), fun old => old ||| uimm5 uimm, by constructor, rfl⟩
  case csrrci rd uimm csr => exact ⟨csr, decide (uimm ≠ 0#5), fun old => old &&& ~~~uimm5 uimm, by constructor, rfl⟩
  all_goals exact Shape.noConfusion h

theorem exec_idle {i : Instr} (h : i.shape = .idle) (s : State) :
    exec i s = .next (s.advance (encode i).ilen) ∨ (i = .wfi ∧ s.priv = .u
      ∧ exec i s = s.raise .illegalInstruction (encode i).bits) := by
  cases i <;> first | exact Shape.noConfusion h | exact .inl rfl | skip
  by_cases hp : s.priv = .u
  · exact .inr ⟨rfl, hp, if_pos (by rw [hp]; decide)⟩
  · exact .inl (if_neg (by cases h' : s.priv <;> first | exact absurd h' hp | decide))

theorem exec_noFpu {i : Instr} (h : i.shape = .noFpu) (s : State) :
    exec i s = .next (s.excState .illegalInstruction (encode i).bits) := by
  cases i <;> first | exact Shape.noConfusion h | rfl

theorem exec_call {i : Instr} (h : i.shape = .call) (s : State) :
    ∃ e tval, exec i s = .next (s.excState e tval) := by
  cases i <;> first | exact Shape.noConfusion h | exact ⟨_, _, rfl⟩

/-- An instruction that needs a mode: it has its effect in that mode and above, and is illegal below it. -/
theorem privileged_of_le {least : Priv} {i : Instr} {r : Result} {s : State} (h : Priv.rank least ≤ Priv.rank s.priv) :
    privileged least i r s = r := if_neg (by omega)

theorem privileged_of_lt {least : Priv} {i : Instr} {r : Result} {s : State} (h : Priv.rank s.priv < Priv.rank least) :
    privileged least i r s = .next (s.excState .illegalInstruction (encode i).bits) := if_pos h

/-- Only the forms that access memory have a data access. -/
theorem dataAccess_shape {i : Instr} {s : State} {a : Word × Nat × Intent} (h : i.dataAccess s = some a) :
    i.shape = .load ∨ i.shape = .store ∨ i.shape = .lr ∨ i.shape = .sc ∨ i.shape = .amo := by
  cases i <;> first
    | exact .inl rfl | exact .inr (.inl rfl) | exact .inr (.inr (.inl rfl)) | exact .inr (.inr (.inr (.inl rfl)))
    | exact .inr (.inr (.inr (.inr rfl))) | exact nomatch (show (none : Option (Word × Nat × Intent)) = some a from h)

end Sys2Proof.Machine
end

