-- ==== Sys2Proof/Machine/HostInterface.lean ====
section
/-! DEFINITION. What the host does to the hart between steps (spec/70_reset_and_hazards.md R693, R699, R702): the load,
the run, the poke and the exit value.  No step of the hart calls any of it (DESIGN CHOICE, log entry 11). -/

namespace Sys2Proof.Machine

open Sys2Proof

/-- What the loader is given (R693). -/
structure Image where
  /-- ENTRY; an odd one is kept as given (DESIGN CHOICE, log entry 14) -/
  entry : Word
  /-- SP0 / 16, so that SP0 mod 16 = 0 -/
  sp : BitVec 60
  /-- `__global_pointer$`, or 0 -/
  gp : Word
  a0 : Word
  a1 : Word
  /-- a user-mode image: the first mode is U, else INITIAL_PRIV -/
  user : Bool
  /-- runs of bytes at physical addresses -/
  segments : List (Nat × List Byte)
  deriving DecidableEq, Repr

/-- Writes a run of bytes from `a` on.  A byte at or above 2^PA_BITS is stored like any other and no access of the hart
reads it (DESIGN CHOICE, log entry 15: R693 and R702 do not say). -/
def Memory.writeRun (m : Memory) : Nat → List Byte → Memory
  | _, [] => m
  | a, b :: bs => Memory.writeRun (m.write a b) (a + 1) bs

/-- The initial `sp`: `SP0`, a multiple of 16 (R693). -/
def Image.sp0 (im : Image) : Word := im.sp ++ 0#4

/-- The state a loader leaves for the first step, on a hart with parameters `p` (R693); `ra` is 0.  The pc is ENTRY at
XLEN bits, bit 0 as given (DESIGN CHOICE, log entry 14). -/
def State.loaded (p : Params) (im : Image) : State :=
  { ((((((State.resetWith p).setPc im.entry).setReg 2#5 im.sp0).setReg 3#5 im.gp).setReg 10#5 im.a0).setReg 11#5 im.a1)
    with
    priv := if im.user then .u else p.initialPriv
    mem := im.segments.foldl (fun m seg => Memory.writeRun m seg.1 seg.2) [] }

/-- The run with budget `n` (R702): steps until `halt_requested`, `n` steps done, or the host's interrupt flag.  The flag
is read before each step; `interrupted k` is its value when `k` steps of the budget are left.  A stop leaves the state as
after the last step, so that the run may resume. -/
def State.run (interrupted : Nat → Bool) : Nat → State → Result
  | 0, s => .next s
  | n + 1, s =>
    if s.haltRequested || interrupted (n + 1) then .next s
    else
      match step s with
      | .next t => State.run interrupted n t
      | .fault f => .fault f
      | .refused r => .refused r

/-- A host write of one byte of memory: it clears the reservation and leaves the TLB (R453, R702).  At or above 2^PA_BITS
it is stored like any other byte (DESIGN CHOICE, log entry 15). -/
def State.pokeMemory (s : State) (pa : Nat) (b : Byte) : State := { s with mem := s.mem.write pa b, resv := none }

/-- A host write of a register (R702). -/
def State.pokeReg (s : State) (r : Reg) (v : Word) : State := s.setReg r v

/-- A host write of the pc (R702): at XLEN bits, bit 0 as given (DESIGN CHOICE, log entry 14: R45 says that bit 0 of the pc
is always 0, and R702 puts no bound on the value). -/
def State.pokePc (s : State) (v : Word) : State := s.setPc v

/-- A host write of a CSR follows its write rule and side effect (R702, R57, R91). -/
def State.pokeCsr (s : State) (c : Csr) (v : Word) : State := s.writeCsr c v

/-- The host clears `halt_requested` (R50, R702). -/
def State.clearHalt (s : State) : State := { s with haltRequested := false }

/-- The exit value: `a0` (R699). -/
def State.exitValue (s : State) : Word := s.reg 10#5

end Sys2Proof.Machine
end

