-- ==== Sys2Proof/Laws/HostInterface.lean ====
section
/-! SUPPORT. The laws of a run with a budget (R702). -/

namespace Sys2Proof.Machine

open Sys2Proof

/-- One step of the budget. -/
theorem run_succ (f : Nat → Bool) (n : Nat) (s : State) : s.run f (n + 1) =
    if s.haltRequested || f (n + 1) then .next s
    else
      match step s with
      | .next t => t.run f n
      | .fault e => .fault e
      | .refused e => .refused e := rfl

/-- A run of a halted hart does nothing. -/
theorem run_halted {s : State} (h : s.haltRequested = true) (f : Nat → Bool) (n : Nat) : s.run f n = .next s := by
  cases n with
  | zero => rfl
  | succ n => simp [State.run, h]

/-- The host's flag stops a run where it is. -/
theorem run_interrupted {f : Nat → Bool} {n : Nat} (h : f (n + 1) = true) (s : State) : s.run f (n + 1) = .next s := by
  simp [State.run, h]

/-- While nothing stops it, a run is one step and the rest of the run. -/
theorem run_step {f : Nat → Bool} {n : Nat} {s t : State} (hh : s.haltRequested = false) (hf : f (n + 1) = false)
    (h : step s = .next t) : s.run f (n + 1) = t.run f n := by
  simp [State.run, hh, hf, h]

/-- A run that its budget of `m` stopped resumes with a budget of `n` as if it had had `m + n` from the start. -/
theorem run_resumes {f g : Nat → Bool} {s t : State} (m n : Nat) (hf : ∀ k, n < k → f k = false)
    (hg : ∀ k, g k = false) (h : s.run g m = .next t) : s.run f (m + n) = t.run f n := by
  induction m generalizing s with
  | zero => cases h; rw [Nat.zero_add]
  | succ m ih =>
    rw [Nat.succ_add, run_succ, hf _ (by omega), Bool.or_false]
    rw [run_succ, hg, Bool.or_false] at h
    split at h
    · rename_i hh
      cases h
      rw [if_pos hh, run_halted hh]
    · rename_i hh
      rw [if_neg hh]
      split at h
      · exact ih h
      · cases h
      · cases h

end Sys2Proof.Machine
end

