-- ==== Sys2Proof/Laws/Tlb.lean ====
section
/-! SUPPORT. What an access does to the TLB, and what of it survives a raise (R160, R163, R171, R173, R622). -/

namespace Sys2Proof.Machine

open Sys2Proof

/-! ### The slots of an access -/

/-- What any number of hits and insertions leave: a slot holds its old entry, its old entry with a fresh stamp, or an
inserted one with a fresh stamp. -/
structure Tlb.Grown (p : Params) (old new : Tlb) : Prop where
  slot : ∀ (it : Intent) (k : Nat) (e : TlbEntry), (new.entries it)[k]? = some e →
    (old.entries it)[k]? = some e
      ∨ (e.valid = true ∧ old.clock < e.stamp ∧ e.stamp ≤ new.clock
        ∧ (e.level < levels p.xlen ∨ ∃ o : TlbEntry, (old.entries it)[k]? = some o ∧ { e with stamp := o.stamp } = o))
  size : ∀ it : Intent, (old.entries it).length ≤ (new.entries it).length
    ∧ (new.entries it).length ≤ max (old.entries it).length p.tlbK
  clock : old.clock ≤ new.clock

theorem Tlb.Grown.refl (p : Params) (t : Tlb) : t.Grown p t :=
  ⟨fun _ _ _ => .inl, fun _ => ⟨le_rfl, le_max_left ..⟩, le_rfl⟩

theorem Tlb.Grown.trans {p : Params} {a b c : Tlb} (h : a.Grown p b) (g : b.Grown p c) : a.Grown p c := by
  have hc := h.clock
  have gc := g.clock
  refine ⟨fun it k e he => ?_, fun it => ?_, hc.trans gc⟩
  · rcases g.slot it k e he with hb | ⟨hv, h1, h2, hl⟩
    · rcases h.slot it k e hb with ha | ⟨hv, h1, h2, hl⟩
      · exact .inl ha
      · exact .inr ⟨hv, h1, h2.trans gc, hl⟩
    · refine .inr ⟨hv, by omega, h2, ?_⟩
      rcases hl with hl | ⟨m, hm, hme⟩
      · exact .inl hl
      · have e1 : e.level = m.level := by rw [← hme]
        rcases h.slot it k m hm with ha | ⟨-, -, -, hl | ⟨o, ho, hoe⟩⟩
        · exact .inr ⟨m, ha, hme⟩
        · exact .inl (e1 ▸ hl)
        · exact .inr ⟨o, ho, by rw [← hoe, ← hme]⟩
  · have := h.size it; have := g.size it; omega

theorem Tlb.OnlyFills.grown {p : Params} {a b : Tlb} (h : a.OnlyFills p b) : a.Grown p b :=
  ⟨fun it k e he => (h.slot it k e he).imp id fun ⟨hv, hl, h1, h2, _⟩ => ⟨hv, h1, h2, .inl hl⟩, h.size, h.clock⟩

theorem Tlb.OnlyFills.refl (p : Params) (t : Tlb) : t.OnlyFills p t :=
  ⟨fun _ _ _ => .inl, fun _ => ⟨le_rfl, le_max_left ..⟩, le_rfl, fun _ => rfl⟩

/-- The arrays after one of them is put back. -/
theorem entries_setEntries (t : Tlb) (es : List TlbEntry) (it jt : Intent) :
    (t.setEntries es it).entries jt = if jt = it then es else t.entries jt := by cases it <;> cases jt <;> rfl

@[simp] theorem clock_setEntries (t : Tlb) (es : List TlbEntry) (it : Intent) :
    (t.setEntries es it).clock = t.clock + 1 := by cases it <;> rfl

/-- One event of an array: every slot is as before or holds `a`, which has the stamp of the event. -/
theorem setEntries_grown {p : Params} {t : Tlb} {it : Intent} {es : List TlbEntry} {a : TlbEntry}
    (hv : a.valid = true) (hs : a.stamp = t.clock + 1)
    (h : ∀ (k : Nat) (e : TlbEntry), es[k]? = some e → (t.entries it)[k]? = some e ∨ (e = a ∧ (a.level < levels p.xlen
      ∨ ∃ o : TlbEntry, (t.entries it)[k]? = some o ∧ { a with stamp := o.stamp } = o)))
    (hl : (t.entries it).length ≤ es.length ∧ es.length ≤ max (t.entries it).length p.tlbK) :
    t.Grown p (t.setEntries es it) := by
  refine ⟨fun jt k e he => ?_, fun jt => ?_, by simp⟩
  · rw [entries_setEntries] at he
    split at he
    · subst ‹jt = it›
      refine (h k e he).imp id fun ⟨hea, hc⟩ => ?_
      subst hea
      exact ⟨hv, by omega, by rw [clock_setEntries]; omega, hc⟩
    · exact .inl he
  · rw [entries_setEntries]
    split
    · subst ‹jt = it›; exact hl
    · exact ⟨le_rfl, le_max_left ..⟩

/-- A slot of an array in which one slot was overwritten. -/
theorem set_slot {es : List TlbEntry} {i k : Nat} {a e : TlbEntry} (h : (es.set i a)[k]? = some e) :
    es[k]? = some e ∨ e = a := by
  rw [List.getElem?_set] at h
  split at h
  · split at h
    · cases h; exact .inr rfl
    · cases h
  · exact .inl h

/-- Where an insertion puts its entry (R173): every slot is as before or holds the new entry. -/
theorem placeEntry_slot {n k : Nat} {a e : TlbEntry} {es : List TlbEntry} (h : (placeEntry n a es)[k]? = some e) :
    es[k]? = some e ∨ e = a := by
  unfold placeEntry at h
  split at h
  · exact set_slot h
  · split at h
    · rw [List.getElem?_append] at h
      split at h
      · exact .inl h
      · rw [List.getElem?_singleton] at h
        split at h
        · cases h; exact .inr rfl
        · cases h
    · split at h
      · exact set_slot h
      · exact .inl h

theorem placeEntry_length (n : Nat) (a : TlbEntry) (es : List TlbEntry) :
    es.length ≤ (placeEntry n a es).length ∧ (placeEntry n a es).length ≤ max es.length n := by
  unfold placeEntry
  split
  · simp
  · split
    · simp; omega
    · split <;> simp

/-- The entry a lookup answers satisfies the condition and stands in its slot. -/
theorem newestHit_spec {f : TlbEntry → Bool} {es : List TlbEntry} {k : Nat} {e : TlbEntry}
    (h : newestHit f es = some (k, e)) : es[k]? = some e ∧ f e = true := by
  induction es generalizing k e with
  | nil => cases h
  | cons a as ih =>
    unfold newestHit at h
    split at h
    · split at h
      · cases h; exact ⟨rfl, ‹_›⟩
      · cases h
    · split at h
      · cases h; simp_all
      · cases h; exact ih ‹_›

/-- A leaf is found at the level the walk starts from or below. -/
theorem walk_level {p : Params} {m : Memory} {va : Word} {i j a : Nat} {pte : Word}
    (h : walk p m va i a = .ok (pte, j)) : j ≤ i := by
  induction i generalizing a with
  | zero =>
    unfold walk at h
    split at h <;> cases h
    exact le_rfl
  | succ i ih =>
    unfold walk at h
    split at h
    · cases h
    · cases h; exact le_rfl
    · exact (ih h).trans (Nat.le_succ i)

theorem levels_pos (x : Xlen) : 0 < levels x := by cases x <;> decide

/-- A translation hits, inserts, or leaves the TLB alone. -/
theorem translate_grown (s : State) (t : Tlb) (va : Word) (it : Intent) :
    t.Grown s.params (s.translate t va it).1 := by
  unfold State.translate
  split
  · exact .refl ..
  · split
    · rename_i slot e hit
      obtain ⟨he, hf⟩ := newestHit_spec hit
      have hv : e.valid = true := by simp [TlbEntry.hits] at hf; exact hf.1.1
      refine setEntries_grown (a := { e with stamp := t.clock + 1 }) hv rfl (fun k o ho => ?_) (by simp)
      rw [List.getElem?_set] at ho
      split at ho
      · subst ‹slot = k›
        split at ho
        · cases ho; exact .inr ⟨rfl, .inr ⟨e, he, rfl⟩⟩
        · cases ho
      · exact .inl ho
    · split
      · exact .refl ..
      · rename_i pte i hw
        split
        · refine setEntries_grown rfl rfl (fun k o ho => (placeEntry_slot ho).imp id fun h => ⟨h, .inl ?_⟩)
            (placeEntry_length ..)
          have := walk_level hw; have := levels_pos s.params.xlen
          dsimp only; omega
        · exact .refl ..

theorem accessRun_tlb (s : State) (t : Tlb) (va : Word) (n : Nat) (it : Intent) :
    (s.accessRun t va n it).1 = (s.translate t va it).1 := by
  unfold State.accessRun
  split
  · simp [*]
  · split <;> simp [*]

/-- The translations of an access only hit and insert. -/
theorem accessRuns_grown (s : State) (va : Word) (n : Nat) (it : Intent) :
    s.tlb.Grown s.params (s.accessRuns va n it).1 := by
  have run : ∀ (t : Tlb) (w : Word) (m : Nat), t.Grown s.params (s.accessRun t w m it).1 := fun t w m =>
    accessRun_tlb s t w m it ▸ translate_grown ..
  unfold State.accessRuns
  split
  · dsimp only
    split
    · exact run ..
    · have h1 := run s.tlb va (4096 - va.toNat % 4096)
      split
      · rename_i h; rw [h] at h1; exact h1
      · rename_i t1 _ h
        rw [h] at h1
        have h2 := run t1 (truncX s.params.xlen (va + BitVec.ofNat 64 (4096 - va.toNat % 4096)))
          (n - (4096 - va.toNat % 4096))
        split <;> (rename_i g; rw [g] at h2; exact h1.trans h2)
  · split <;> exact .refl ..

/-! ### What survives a raise -/

theorem keepFilled_length (os es : List TlbEntry) : (keepFilled os es).length = es.length := by
  induction os generalizing es with
  | nil => rfl
  | cons o os ih => cases es <;> simp [keepFilled, ih]

/-- A slot after a raise: the old entry, or the new one where it is not the old one with another stamp. -/
theorem keepFilled_slot {os es : List TlbEntry} {k : Nat} {e : TlbEntry} (h : (keepFilled os es)[k]? = some e) :
    os[k]? = some e ∨ (es[k]? = some e ∧ ∀ o : TlbEntry, os[k]? = some o → { e with stamp := o.stamp } ≠ o) := by
  induction os generalizing es k with
  | nil => exact .inr ⟨h, by simp⟩
  | cons o os ih =>
    cases es with
    | nil => simp [keepFilled] at h
    | cons a es =>
      cases k with
      | succ k => simpa [keepFilled] using ih (by simpa [keepFilled] using h)
      | zero =>
        simp only [keepFilled, List.getElem?_cons_zero, Option.some.injEq] at h ⊢
        split at h
        · exact .inl h
        · subst h; exact .inr ⟨rfl, fun p hp => hp ▸ ‹_›⟩

/-- Nothing is taken back of an array in which nothing but insertions happened. -/
theorem keepFilled_eq {os es : List TlbEntry} (hl : os.length ≤ es.length)
    (h : ∀ (k : Nat) (e : TlbEntry), es[k]? = some e →
      os[k]? = some e ∨ ∀ o : TlbEntry, os[k]? = some o → { e with stamp := o.stamp } ≠ o) : keepFilled os es = es := by
  induction os generalizing es with
  | nil => rfl
  | cons o os ih =>
    cases es with
    | nil => simp at hl
    | cons a es =>
      have h0 : (if { a with stamp := o.stamp } = o then o else a) = a := by
        split
        · rcases h 0 a rfl with g | g
          · simpa using g
          · exact absurd ‹_› (g o rfl)
        · rfl
      simp only [keepFilled]
      rw [h0, ih (by simpa using hl) fun k e he => by simpa using h (k + 1) e (by simpa using he)]

/-- All that a raise can leave of the TLB. -/
theorem keepFills_cases (old new : Tlb) :
    old.keepFills new = old
    ∨ ((∀ it : Intent, (old.keepFills new).entries it = keepFilled (old.entries it) (new.entries it))
      ∧ (old.keepFills new).clock = new.clock ∧ ∃ it : Intent, (old.keepFills new).entries it ≠ old.entries it) := by
  unfold Tlb.keepFills
  dsimp only
  split
  · exact .inl rfl
  · rename_i h
    refine .inr ⟨fun it => by cases it <;> rfl, rfl, ?_⟩
    by_contra hc
    push Not at hc
    exact h ⟨hc .fetch, hc .load, hc .store⟩

/-- After a raise only insertions are left, whatever hits and insertions came before it. -/
theorem keepFills_onlyFills {p : Params} {old new : Tlb} (h : old.Grown p new) : old.OnlyFills p (old.keepFills new) := by
  rcases keepFills_cases old new with hk | ⟨hk, hc, it, hne⟩
  · rw [hk]; exact .refl ..
  · refine ⟨fun jt k e he => ?_, fun jt => ?_, hc ▸ h.clock, fun hs => absurd (hs it) hne⟩
    · rw [hk] at he
      refine (keepFilled_slot he).imp id fun ⟨hn, hs⟩ => ?_
      rcases h.slot jt k e hn with ho | ⟨hv, h1, h2, hl | ⟨o, ho, hoe⟩⟩
      · exact absurd rfl (hs e ho)
      · exact ⟨hv, hl, h1, hc ▸ h2, hs⟩
      · exact absurd hoe (hs o ho)
    · rw [hk, keepFilled_length]; exact h.size jt

/-- A raise takes nothing more back where only insertions are left. -/
theorem keepFills_eq {p : Params} {old new : Tlb} (h : old.OnlyFills p new) : old.keepFills new = new := by
  have e : ∀ it, keepFilled (old.entries it) (new.entries it) = new.entries it :=
    fun it => keepFilled_eq (h.size it).1 fun k a ha => (h.slot it k a ha).imp id fun hn => hn.2.2.2.2
  have ef := e .fetch; have el := e .load; have es := e .store
  simp only [Tlb.entries] at ef el es
  unfold Tlb.keepFills
  simp only [ef, el, es]
  split
  · rename_i hq
    obtain ⟨h1, h2, h3⟩ := hq
    have hc := h.still fun it => by cases it <;> assumption
    obtain ⟨_, _, _, _⟩ := old; obtain ⟨_, _, _, _⟩ := new
    simp_all
  · rfl

/-! ### The TLB after an access -/

theorem accessTlb_of_ok {s : State} {va : Word} {n : Nat} {it : Intent} {pas : List Nat}
    (h : (s.accessRuns va n it).2 = .ok pas) : s.accessTlb va n it = (s.accessRuns va n it).1 := by
  unfold State.accessTlb; split <;> simp_all

theorem accessTlb_of_error {s : State} {va : Word} {n : Nat} {it : Intent} {f : MemFail}
    (h : (s.accessRuns va n it).2 = .error f) : s.accessTlb va n it = s.tlb.keepFills (s.accessRuns va n it).1 := by
  unfold State.accessTlb; split <;> simp_all

/-- An access hits and inserts; a failed access leaves only what it inserted (R160). -/
theorem accessTlb_grown (s : State) (va : Word) (n : Nat) (it : Intent) :
    s.tlb.Grown s.params (s.accessTlb va n it) := by
  cases h : (s.accessRuns va n it).2 with
  | ok pas => rw [accessTlb_of_ok h]; exact accessRuns_grown ..
  | error f => rw [accessTlb_of_error h]; exact (keepFills_onlyFills (accessRuns_grown ..)).grown

theorem accessTlb_onlyFills {s : State} {va : Word} {n : Nat} {it : Intent} {e : Exc}
    (h : s.access va n it = .error e) : s.tlb.OnlyFills s.params (s.accessTlb va n it) := by
  unfold State.access at h
  split at h
  · cases h
  · rw [accessTlb_of_error ‹_›]; exact keepFills_onlyFills (accessRuns_grown ..)

/-- Hits and insertions keep the bounds of the TLB. -/
theorem TlbInv.grown {s t : State} (hs : TlbInv s) (hp : t.params = s.params) (h : Tlb.Grown s.params s.tlb t.tlb) :
    TlbInv t := by
  have slot : ∀ it, ∀ e ∈ t.tlb.entries it, e.level < levels s.params.xlen ∧ e.stamp ≤ t.tlb.clock := by
    intro it e he
    obtain ⟨k, hk⟩ := List.mem_iff_getElem?.1 he
    rcases h.slot it k e hk with ho | ⟨-, -, h2, hl | ⟨o, ho, hoe⟩⟩
    · have hm := List.mem_of_getElem? ho
      exact ⟨hs.level it e hm, (hs.stamp it e hm).trans h.clock⟩
    · exact ⟨hl, h2⟩
    · have hq : e.level = o.level := by rw [← hoe]
      exact ⟨hq ▸ hs.level it o (List.mem_of_getElem? ho), h2⟩
  refine ⟨fun it => ?_, fun it e he => hp ▸ (slot it e he).1, fun it e he => (slot it e he).2⟩
  have h1 := h.size it; have h2 := hs.size it
  rw [hp]; omega

end Sys2Proof.Machine
end

