-- ==== Sys2Proof/Laws/Ops.lean ====
section
/-! SUPPORT. For each shared operation, once, everything it can do: what holds when it answers a next state. -/

namespace Sys2Proof.Machine

open Sys2Proof

theorem trapped_self (s : State) (e : Exc) (tval : Word) : Trapped s (s.excState e tval) :=
  ⟨s.tlb, e, tval, .refl .., rfl⟩

/-- A failed access and the trap after it. -/
theorem trapped_afterAccess {s : State} {va : Word} {n : Nat} {it : Intent} {e : Exc} (tval : Word)
    (h : s.access va n it = .error e) : Trapped s ((s.afterAccess va n it).excState e tval) :=
  ⟨s.accessTlb va n it, e, tval, accessTlb_onlyFills h, rfl⟩

/-- What is left alone by a trap of an instruction. -/
theorem Trapped.keeps {s t : State} (h : Trapped s t) :
    t.params = s.params ∧ t.regs = s.regs ∧ t.mem = s.mem ∧ t.resv = none ∧ t.trapped = true
      ∧ Tlb.OnlyFills s.params s.tlb t.tlb := by
  obtain ⟨tlb, e, tval, ht, rfl⟩ := h
  exact ⟨rfl, rfl, rfl, rfl, rfl, ht⟩

theorem Priv.rank_injective {p q : Priv} (h : Priv.rank p = Priv.rank q) : p = q := by
  cases p <;> cases q <;> first | rfl | exact absurd h (by decide)

/-! ### Registers -/

theorem reg_setReg_other (s : State) {r q : Reg} (v : Word) (h : q ≠ r) : (s.setReg r v).reg q = s.reg q := by
  rw [reg_setReg, if_neg fun hc => h hc.1]

theorem reg_setReg_self (s : State) {r : Reg} (v : Word) (h : r ≠ 0#5) :
    (s.setReg r v).reg r = truncX s.params.xlen v := by rw [reg_setReg, if_pos ⟨rfl, h⟩]

/-- Writes of equal XLEN-bit values are equal. -/
theorem setReg_congr {s : State} {r : Reg} {v w : Word} (h : truncX s.params.xlen v = truncX s.params.xlen w) :
    s.setReg r v = s.setReg r w := by unfold State.setReg; rw [h]

/-! ### Accesses -/

theorem access_ok_iff {s : State} {va : Word} {n : Nat} {it : Intent} {pas : List Nat} :
    s.access va n it = .ok pas ↔ (s.accessRuns va n it).2 = .ok pas := by
  unfold State.access; split <;> simp [*]

theorem addrRange_length (pa n : Nat) : (addrRange pa n).length = n := by simp [addrRange]

/-! ### The operations -/

theorem jumpTo_next {n : Nat} {rd : Reg} {t : Word} {s u : State} (h : jumpTo n rd t s = .next u) :
    Trapped s u ∨ (s.badTarget t = false ∧ u = ((s.setReg rd (s.npc n)).setPc t).jumpHalt) := by
  unfold jumpTo at h
  split at h
  · cases h; exact .inl (trapped_self ..)
  · cases h; exact .inr ⟨Bool.eq_false_iff.2 ‹_›, rfl⟩

theorem branchIf_next {n : Nat} {taken : Bool} {off : Word} {s u : State} (h : branchIf n taken off s = .next u) :
    Trapped s u ∨ (s.badTarget (s.pcRel off) = false ∧ u = s.setPc (s.pcRel off)) ∨ u = s.advance n := by
  unfold branchIf at h
  split at h
  · split at h
    · cases h; exact .inl (trapped_self ..)
    · cases h; exact .inr (.inl ⟨Bool.eq_false_iff.2 ‹_›, rfl⟩)
  · cases h; exact .inr (.inr rfl)

theorem loadOp_next {ilen n : Nat} {ext : Word → Word} {rd rs1 : Reg} {off : Word} {s u : State}
    (h : loadOp ilen n ext rd rs1 off s = .next u) :
    Trapped s u ∨ ∃ pas, s.access (s.addr rs1 off) n .load = .ok pas ∧
      u = ((s.afterAccess (s.addr rs1 off) n .load).setReg rd (ext (s.mem.readLE pas))).advance ilen := by
  unfold loadOp at h
  split at h
  · cases h; exact .inl (trapped_self ..)
  · split at h
    · cases h; exact .inl (trapped_afterAccess _ ‹_›)
    · cases h; exact .inr ⟨_, ‹_›, rfl⟩

theorem storeOp_next {ilen n : Nat} {rs1 rs2 : Reg} {off : Word} {s u : State}
    (h : storeOp ilen n rs1 rs2 off s = .next u) :
    Trapped s u ∨ ∃ pas, s.access (s.addr rs1 off) n .store = .ok pas ∧
      u = (((s.afterAccess (s.addr rs1 off) n .store).storeAt pas (s.reg rs2)).clearResv).advance ilen := by
  unfold storeOp at h
  split at h
  · cases h; exact .inl (trapped_self ..)
  · split at h
    · cases h; exact .inl (trapped_afterAccess _ ‹_›)
    · cases h; exact .inr ⟨_, ‹_›, rfl⟩

theorem lrOp_next {g : Granule} {rd rs1 : Reg} {s u : State} (h : lrOp g rd rs1 s = .next u) :
    Trapped s u ∨ ∃ pas, s.access (s.reg rs1) g.bytes .load = .ok pas ∧
      u = ({ s.afterAccess (s.reg rs1) g.bytes .load with
        resv := some { addr := s.reg rs1, size := g } }.setReg rd (g.sext (s.mem.readLE pas))).advance 4 := by
  unfold lrOp at h
  split at h
  · cases h; exact .inl (trapped_self ..)
  · split at h
    · cases h; exact .inl (trapped_afterAccess _ ‹_›)
    · cases h; exact .inr ⟨_, ‹_›, rfl⟩

theorem scOp_next {g : Granule} {rd rs1 rs2 : Reg} {s u : State} (h : scOp g rd rs1 rs2 s = .next u) :
    Trapped s u
    ∨ (s.resv = some { addr := s.reg rs1, size := g } ∧ ∃ pas, s.access (s.reg rs1) g.bytes .store = .ok pas ∧
      u = ((((s.afterAccess (s.reg rs1) g.bytes .store).storeAt pas (s.reg rs2)).setReg rd 0#64).clearResv).advance 4)
    ∨ (s.resv ≠ some { addr := s.reg rs1, size := g } ∧ u = ((s.setReg rd 1#64).clearResv).advance 4) := by
  unfold scOp at h
  split at h
  · cases h; exact .inl (trapped_self ..)
  · split at h
    · split at h
      · cases h; exact .inl (trapped_afterAccess _ ‹_›)
      · cases h; exact .inr (.inl ⟨‹_›, _, ‹_›, rfl⟩)
    · cases h; exact .inr (.inr ⟨‹_›, rfl⟩)

theorem amoOp_next {g : Granule} {f : {w : Nat} → BitVec w → BitVec w → BitVec w} {rd rs1 rs2 : Reg} {s u : State}
    (h : amoOp g f rd rs1 rs2 s = .next u) :
    Trapped s u ∨ ∃ pas, s.access (s.reg rs1) g.bytes .store = .ok pas ∧
      u = ((((s.afterAccess (s.reg rs1) g.bytes .store).storeAt pas
        (g.apply f (s.mem.readLE pas) (s.reg rs2))).setReg rd (g.sext (s.mem.readLE pas))).clearResv).advance 4 := by
  unfold amoOp at h
  split at h
  · cases h; exact .inl (trapped_self ..)
  · split at h
    · cases h; exact .inl (trapped_afterAccess _ ‹_›)
    · cases h; exact .inr ⟨_, ‹_›, rfl⟩

theorem csrOp_next {i : Instr} {rd : Reg} {csr : CsrIndex} {writes : Bool} {new : Word → Word} {s u : State}
    (h : csrOp i rd csr writes new s = .next u) :
    Trapped s u ∨ ∃ c, s.csrCheck csr writes = some c ∧
      u = ((if writes then s.writeCsr c (new (s.readCsr c)) else s).setReg rd (s.readCsr c)).advance 4 := by
  unfold csrOp at h
  split at h
  · cases h; exact .inl (trapped_self ..)
  · cases h; exact .inr ⟨_, ‹_›, rfl⟩

theorem mret_next {s u : State} (h : exec .mret s = .next u) : Trapped s u ∨ (s.priv = .m ∧ u = s.returnM) := by
  by_cases hp : Priv.rank s.priv < Priv.rank .m
  · rw [show exec .mret s = privileged .m .mret (.next s.returnM) s from rfl, privileged_of_lt hp] at h
    cases h; exact .inl (trapped_self ..)
  · rw [show exec .mret s = privileged .m .mret (.next s.returnM) s from rfl, privileged_of_le (by omega)] at h
    cases h
    refine .inr ⟨?_, rfl⟩
    cases hq : s.priv <;> simp_all [Priv.rank]

theorem sret_next {s u : State} (h : exec .sret s = .next u) : Trapped s u ∨ (s.priv ≠ .u ∧ u = s.returnS) := by
  by_cases hp : Priv.rank s.priv < Priv.rank .s
  · rw [show exec .sret s = privileged .s .sret (.next s.returnS) s from rfl, privileged_of_lt hp] at h
    cases h; exact .inl (trapped_self ..)
  · rw [show exec .sret s = privileged .s .sret (.next s.returnS) s from rfl, privileged_of_le (by omega)] at h
    cases h
    refine .inr ⟨?_, rfl⟩
    rintro hq; simp [hq, Priv.rank] at hp

theorem sfenceVma_next {rs1 rs2 : Reg} {s u : State} (h : exec (.sfenceVma rs1 rs2) s = .next u) :
    Trapped s u ∨ (s.priv ≠ .u ∧ u = { s with tlb := s.tlb.invalidate (sfenceSelects s rs1 rs2) }.advance 4) := by
  by_cases hp : Priv.rank s.priv < Priv.rank .s
  · rw [show exec (.sfenceVma rs1 rs2) s = privileged .s (.sfenceVma rs1 rs2) _ s from rfl, privileged_of_lt hp] at h
    cases h; exact .inl (trapped_self ..)
  · rw [show exec (.sfenceVma rs1 rs2) s = privileged .s (.sfenceVma rs1 rs2) _ s from rfl,
      privileged_of_le (by omega)] at h
    cases h
    refine .inr ⟨?_, rfl⟩
    rintro hq; simp [hq, Priv.rank] at hp

/-- Everything any instruction can do: a trap of the state it started in, or the effect of its shape. -/
theorem exec_next {i : Instr} {s u : State} (h : exec i s = .next u) :
    Trapped s u
    ∨ (i.shape = .compute ∧ ∃ v, u = (s.setReg i.dest v).advance (encode i).ilen)
    ∨ (i.shape = .jump ∧ ∃ t, (s.pc.getLsbD 0 = false → t.getLsbD 0 = false) ∧ s.badTarget t = false
        ∧ u = ((s.setReg i.dest (s.npc (encode i).ilen)).setPc t).jumpHalt)
    ∨ (i.shape = .branch ∧ ((∃ t, (s.pc.getLsbD 0 = false → t.getLsbD 0 = false) ∧ s.badTarget t = false
        ∧ u = s.setPc t) ∨ u = s.advance (encode i).ilen))
    ∨ (i.shape = .load ∧ ∃ va n v, i.dataAccess s = some (va, n, .load)
        ∧ u = ((s.afterAccess va n .load).setReg i.dest v).advance (encode i).ilen)
    ∨ (i.shape = .lr ∧ ∃ va g v, i.dataAccess s = some (va, Granule.bytes g, .load)
        ∧ u = ({ s.afterAccess va g.bytes .load with
            resv := some { addr := va, size := g } }.setReg i.dest v).advance 4)
    ∨ ((i.shape = .store ∨ i.shape = .sc ∨ i.shape = .amo) ∧ ∃ va n pas v v', n ≤ 8 ∧
        i.dataAccess s = some (va, n, .store) ∧ s.access va n .store = .ok pas
        ∧ u = ((((s.afterAccess va n .store).storeAt pas v).setReg i.dest v').clearResv).advance (encode i).ilen)
    ∨ (i.shape = .sc ∧ i.dataAccess s = none ∧ u = ((s.setReg i.dest 1#64).clearResv).advance 4)
    ∨ (i.shape = .csr ∧ ∃ csr writes c v, CsrForm i csr ∧ s.csrCheck csr writes = some c ∧
        u = ((if writes then s.writeCsr c v else s).setReg i.dest (s.readCsr c)).advance 4)
    ∨ (i.shape = .idle ∧ u = s.advance (encode i).ilen)
    ∨ (i.shape = .tlbFence ∧ ∃ f, s.priv ≠ .u ∧ u = { s with tlb := s.tlb.invalidate f }.advance 4)
    ∨ (i = .mret ∧ s.priv = .m ∧ u = s.returnM)
    ∨ (i = .sret ∧ s.priv ≠ .u ∧ u = s.returnS) := by
  cases hs : i.shape
  case compute =>
    obtain ⟨v, hv⟩ := exec_compute hs s
    rw [hv] at h; cases h
    exact .inr (.inl ⟨rfl, v, rfl⟩)
  case jump =>
    obtain ⟨t, he, ht⟩ := exec_jump hs s
    rw [ht] at h
    rcases jumpTo_next h with h | ⟨hb, h⟩
    · exact .inl h
    · exact .inr (.inr (.inl ⟨rfl, t, he, hb, h⟩))
  case branch =>
    obtain ⟨b, off, ho, hb⟩ := exec_branch hs s
    rw [hb] at h
    rcases branchIf_next h with h | ⟨hg, h⟩ | h
    · exact .inl h
    · exact .inr (.inr (.inr (.inl ⟨rfl, .inl ⟨_, fun hp => (truncX_bit0 _ _).trans (add_even hp ho), hg, h⟩⟩)))
    · exact .inr (.inr (.inr (.inl ⟨rfl, .inr h⟩)))
  case load =>
    obtain ⟨n, ext, rs1, off, -, hd, he⟩ := exec_load hs s
    rw [he] at h
    rcases loadOp_next h with h | ⟨pas, -, h⟩
    · exact .inl h
    · exact .inr (.inr (.inr (.inr (.inl ⟨rfl, _, _, _, hd, h⟩))))
  case lr =>
    obtain ⟨g, rs1, hd, he⟩ := exec_lr hs s
    rw [he] at h
    rcases lrOp_next h with h | ⟨pas, -, h⟩
    · exact .inl h
    · exact .inr (.inr (.inr (.inr (.inr (.inl ⟨rfl, _, _, _, hd, h⟩)))))
  case store =>
    obtain ⟨n, rs1, rs2, off, hn, hd, hz, he⟩ := exec_store hs s
    rw [he] at h
    rcases storeOp_next h with h | ⟨pas, ha, h⟩
    · exact .inl h
    · refine .inr (.inr (.inr (.inr (.inr (.inr (.inl ⟨.inl rfl, _, _, pas, s.reg rs2, 0#64, ?_, hd, ha, ?_⟩))))))
      · simp at hn; omega
      · rw [h, hz]; rfl
  case sc =>
    obtain ⟨g, rs1, rs2, hd, he⟩ := exec_sc hs s
    rw [he] at h
    have hl : (encode i).ilen = 4 := by cases i <;> first | exact Shape.noConfusion hs | rfl
    rcases scOp_next h with h | ⟨hr, pas, ha, h⟩ | ⟨hr, h⟩
    · exact .inl h
    · rw [if_pos hr] at hd
      exact .inr (.inr (.inr (.inr (.inr (.inr (.inl ⟨.inr (.inl rfl), _, _, pas, _, _, by cases g <;> decide, hd, ha,
        by rw [h, hl]⟩))))))
    · rw [if_neg hr] at hd
      exact .inr (.inr (.inr (.inr (.inr (.inr (.inr (.inl ⟨rfl, hd, h⟩)))))))
  case amo =>
    obtain ⟨g, f, rs1, rs2, hd, he⟩ := exec_amo hs s
    rw [he] at h
    have hl : (encode i).ilen = 4 := by cases i <;> first | exact Shape.noConfusion hs | rfl
    rcases amoOp_next h with h | ⟨pas, ha, h⟩
    · exact .inl h
    · exact .inr (.inr (.inr (.inr (.inr (.inr (.inl ⟨.inr (.inr rfl), _, _, pas, _, _, by cases g <;> decide, hd, ha,
        by rw [h, hl]⟩))))))
  case csr =>
    obtain ⟨csr, w, new, hf, he⟩ := exec_csr hs s
    rw [he] at h
    rcases csrOp_next h with h | ⟨c, hc, h⟩
    · exact .inl h
    · exact .inr (.inr (.inr (.inr (.inr (.inr (.inr (.inr (.inl ⟨rfl, csr, w, c, _, hf, hc, h⟩))))))))
  case idle =>
    rcases exec_idle hs s with he | ⟨-, -, he⟩
    · rw [he] at h; cases h
      exact .inr (.inr (.inr (.inr (.inr (.inr (.inr (.inr (.inr (.inl ⟨rfl, rfl⟩)))))))))
    · rw [he] at h; cases h; exact .inl (trapped_self ..)
  case call =>
    obtain ⟨e, tval, he⟩ := exec_call hs s
    rw [he] at h; cases h; exact .inl (trapped_self ..)
  case noFpu =>
    rw [exec_noFpu hs] at h; cases h; exact .inl (trapped_self ..)
  case tlbFence =>
    have : ∃ rs1 rs2, i = .sfenceVma rs1 rs2 := by
      cases i <;> first | exact Shape.noConfusion hs | exact ⟨_, _, rfl⟩
    obtain ⟨rs1, rs2, rfl⟩ := this
    rcases sfenceVma_next h with h | ⟨hp, h⟩
    · exact .inl h
    · exact .inr (.inr (.inr (.inr (.inr (.inr (.inr (.inr (.inr (.inr (.inl ⟨rfl, _, hp, h⟩))))))))))
  case ret =>
    have : i = .mret ∨ i = .sret := by
      cases i <;> first | exact Shape.noConfusion hs | exact .inl rfl | exact .inr rfl
    rcases this with rfl | rfl
    · rcases mret_next h with h | ⟨hp, h⟩
      · exact .inl h
      · exact .inr (.inr (.inr (.inr (.inr (.inr (.inr (.inr (.inr (.inr (.inr (.inl ⟨rfl, hp, h⟩)))))))))))
    · rcases sret_next h with h | ⟨hp, h⟩
      · exact .inl h
      · exact .inr (.inr (.inr (.inr (.inr (.inr (.inr (.inr (.inr (.inr (.inr (.inr ⟨rfl, hp, h⟩)))))))))))

/-- Only a trap marks the state. -/
theorem exec_trapped {i : Instr} {s u : State} (hs : s.trapped = false) (h : exec i s = .next u)
    (hu : u.trapped = true) : Trapped s u := by
  rcases exec_next h with h | ⟨-, v, rfl⟩ | ⟨-, t, -, -, rfl⟩ | ⟨-, ⟨t, -, -, rfl⟩ | rfl⟩ | ⟨-, va, n, v, -, rfl⟩
    | ⟨-, va, g, v, -, rfl⟩ | ⟨-, va, n, pas, v, v', -, -, -, rfl⟩ | ⟨-, -, rfl⟩ | ⟨-, csr, w, c, v, -, -, rfl⟩ | ⟨-, rfl⟩
    | ⟨-, f, -, rfl⟩ | ⟨-, -, rfl⟩ | ⟨-, -, rfl⟩
  case inl => exact h
  case inr.inr.inr.inr.inr.inr.inr.inr.inl => cases w <;> simp [hs] at hu
  all_goals simp [hs] at hu

end Sys2Proof.Machine
end

