-- ==== Sys2Proof/Laws/PerInstr.lean ====
section
/-! SUPPORT. The decode round trip (spec/30_encoding.md R234), one lemma for each instruction. -/

namespace Sys2Proof.Laws.RoundTrip

open Sys2Proof

/-- On every XLEN on which `i` is an instruction, the decoder gives it back from the words the encoder makes of it. -/
def Statement (i : Instr) : Prop :=
  ∀ x : Xlen, wellFormed x i = true → decodeInst x true (encode i) = .ok i

theorem lui (rd : Reg) (imm : BitVec 20) : Statement (.lui rd imm) := by
  intro x h
  cases x
  · show decode32 .rv32 (uType imm rd 0b0110111#7) = _
    simp [decode32]
  · show decode32 .rv64 (uType imm rd 0b0110111#7) = _
    simp [decode32]

theorem auipc (rd : Reg) (imm : BitVec 20) : Statement (.auipc rd imm) := by
  intro x h
  cases x
  · show decode32 .rv32 (uType imm rd 0b0010111#7) = _
    simp [decode32]
  · show decode32 .rv64 (uType imm rd 0b0010111#7) = _
    simp [decode32]

theorem addi (rd rs1 : Reg) (imm : BitVec 12) : Statement (.addi rd rs1 imm) := by
  intro x h
  cases x
  · show decode32 .rv32 (iType imm rs1 0#3 rd 0b0010011#7) = _
    simp [decode32, decodeOpImm]
  · show decode32 .rv64 (iType imm rs1 0#3 rd 0b0010011#7) = _
    simp [decode32, decodeOpImm]

theorem slti (rd rs1 : Reg) (imm : BitVec 12) : Statement (.slti rd rs1 imm) := by
  intro x h
  cases x
  · show decode32 .rv32 (iType imm rs1 2#3 rd 0b0010011#7) = _
    simp [decode32, decodeOpImm]
  · show decode32 .rv64 (iType imm rs1 2#3 rd 0b0010011#7) = _
    simp [decode32, decodeOpImm]

theorem sltiu (rd rs1 : Reg) (imm : BitVec 12) : Statement (.sltiu rd rs1 imm) := by
  intro x h
  cases x
  · show decode32 .rv32 (iType imm rs1 3#3 rd 0b0010011#7) = _
    simp [decode32, decodeOpImm]
  · show decode32 .rv64 (iType imm rs1 3#3 rd 0b0010011#7) = _
    simp [decode32, decodeOpImm]

theorem xori (rd rs1 : Reg) (imm : BitVec 12) : Statement (.xori rd rs1 imm) := by
  intro x h
  cases x
  · show decode32 .rv32 (iType imm rs1 4#3 rd 0b0010011#7) = _
    simp [decode32, decodeOpImm]
  · show decode32 .rv64 (iType imm rs1 4#3 rd 0b0010011#7) = _
    simp [decode32, decodeOpImm]

theorem ori (rd rs1 : Reg) (imm : BitVec 12) : Statement (.ori rd rs1 imm) := by
  intro x h
  cases x
  · show decode32 .rv32 (iType imm rs1 6#3 rd 0b0010011#7) = _
    simp [decode32, decodeOpImm]
  · show decode32 .rv64 (iType imm rs1 6#3 rd 0b0010011#7) = _
    simp [decode32, decodeOpImm]

theorem andi (rd rs1 : Reg) (imm : BitVec 12) : Statement (.andi rd rs1 imm) := by
  intro x h
  cases x
  · show decode32 .rv32 (iType imm rs1 7#3 rd 0b0010011#7) = _
    simp [decode32, decodeOpImm]
  · show decode32 .rv64 (iType imm rs1 7#3 rd 0b0010011#7) = _
    simp [decode32, decodeOpImm]

theorem slli (rd rs1 : Reg) (shamt : BitVec 6) : Statement (.slli rd rs1 shamt) := by
  intro x h
  cases x
  · show decode32 .rv32 (shiftType 0#6 shamt rs1 1#3 rd) = _
    have h : (!shamt.getLsbD 5) = true := h
    simp at h
    simp [decode32, decodeOpImm, h]
  · show decode32 .rv64 (shiftType 0#6 shamt rs1 1#3 rd) = _
    simp [decode32, decodeOpImm]

theorem srli (rd rs1 : Reg) (shamt : BitVec 6) : Statement (.srli rd rs1 shamt) := by
  intro x h
  cases x
  · show decode32 .rv32 (shiftType 0#6 shamt rs1 5#3 rd) = _
    have h : (!shamt.getLsbD 5) = true := h
    simp at h
    simp [decode32, decodeOpImm, h]
  · show decode32 .rv64 (shiftType 0#6 shamt rs1 5#3 rd) = _
    simp [decode32, decodeOpImm]

theorem srai (rd rs1 : Reg) (shamt : BitVec 6) : Statement (.srai rd rs1 shamt) := by
  intro x h
  cases x
  · show decode32 .rv32 (shiftType 16#6 shamt rs1 5#3 rd) = _
    have h : (!shamt.getLsbD 5) = true := h
    simp at h
    simp [decode32, decodeOpImm, h]
  · show decode32 .rv64 (shiftType 16#6 shamt rs1 5#3 rd) = _
    simp [decode32, decodeOpImm]

theorem add (rd rs1 rs2 : Reg) : Statement (.add rd rs1 rs2) := by
  intro x h
  cases x
  · show decode32 .rv32 (rType 0#7 rs2 rs1 0#3 rd 0b0110011#7) = _
    simp [decode32, decodeOp]
  · show decode32 .rv64 (rType 0#7 rs2 rs1 0#3 rd 0b0110011#7) = _
    simp [decode32, decodeOp]

theorem sub (rd rs1 rs2 : Reg) : Statement (.sub rd rs1 rs2) := by
  intro x h
  cases x
  · show decode32 .rv32 (rType 32#7 rs2 rs1 0#3 rd 0b0110011#7) = _
    simp [decode32, decodeOp]
  · show decode32 .rv64 (rType 32#7 rs2 rs1 0#3 rd 0b0110011#7) = _
    simp [decode32, decodeOp]

theorem sll (rd rs1 rs2 : Reg) : Statement (.sll rd rs1 rs2) := by
  intro x h
  cases x
  · show decode32 .rv32 (rType 0#7 rs2 rs1 1#3 rd 0b0110011#7) = _
    simp [decode32, decodeOp]
  · show decode32 .rv64 (rType 0#7 rs2 rs1 1#3 rd 0b0110011#7) = _
    simp [decode32, decodeOp]

theorem slt (rd rs1 rs2 : Reg) : Statement (.slt rd rs1 rs2) := by
  intro x h
  cases x
  · show decode32 .rv32 (rType 0#7 rs2 rs1 2#3 rd 0b0110011#7) = _
    simp [decode32, decodeOp]
  · show decode32 .rv64 (rType 0#7 rs2 rs1 2#3 rd 0b0110011#7) = _
    simp [decode32, decodeOp]

theorem sltu (rd rs1 rs2 : Reg) : Statement (.sltu rd rs1 rs2) := by
  intro x h
  cases x
  · show decode32 .rv32 (rType 0#7 rs2 rs1 3#3 rd 0b0110011#7) = _
    simp [decode32, decodeOp]
  · show decode32 .rv64 (rType 0#7 rs2 rs1 3#3 rd 0b0110011#7) = _
    simp [decode32, decodeOp]

theorem xor (rd rs1 rs2 : Reg) : Statement (.xor rd rs1 rs2) := by
  intro x h
  cases x
  · show decode32 .rv32 (rType 0#7 rs2 rs1 4#3 rd 0b0110011#7) = _
    simp [decode32, decodeOp]
  · show decode32 .rv64 (rType 0#7 rs2 rs1 4#3 rd 0b0110011#7) = _
    simp [decode32, decodeOp]

theorem srl (rd rs1 rs2 : Reg) : Statement (.srl rd rs1 rs2) := by
  intro x h
  cases x
  · show decode32 .rv32 (rType 0#7 rs2 rs1 5#3 rd 0b0110011#7) = _
    simp [decode32, decodeOp]
  · show decode32 .rv64 (rType 0#7 rs2 rs1 5#3 rd 0b0110011#7) = _
    simp [decode32, decodeOp]

theorem sra (rd rs1 rs2 : Reg) : Statement (.sra rd rs1 rs2) := by
  intro x h
  cases x
  · show decode32 .rv32 (rType 32#7 rs2 rs1 5#3 rd 0b0110011#7) = _
    simp [decode32, decodeOp]
  · show decode32 .rv64 (rType 32#7 rs2 rs1 5#3 rd 0b0110011#7) = _
    simp [decode32, decodeOp]

theorem or (rd rs1 rs2 : Reg) : Statement (.or rd rs1 rs2) := by
  intro x h
  cases x
  · show decode32 .rv32 (rType 0#7 rs2 rs1 6#3 rd 0b0110011#7) = _
    simp [decode32, decodeOp]
  · show decode32 .rv64 (rType 0#7 rs2 rs1 6#3 rd 0b0110011#7) = _
    simp [decode32, decodeOp]

theorem and (rd rs1 rs2 : Reg) : Statement (.and rd rs1 rs2) := by
  intro x h
  cases x
  · show decode32 .rv32 (rType 0#7 rs2 rs1 7#3 rd 0b0110011#7) = _
    simp [decode32, decodeOp]
  · show decode32 .rv64 (rType 0#7 rs2 rs1 7#3 rd 0b0110011#7) = _
    simp [decode32, decodeOp]

theorem addiw (rd rs1 : Reg) (imm : BitVec 12) : Statement (.addiw rd rs1 imm) := by
  intro x h
  cases x
  · exact Bool.noConfusion h
  · show decode32 .rv64 (iType imm rs1 0#3 rd 0b0011011#7) = _
    simp [decode32, decodeOpImm32]

theorem slliw (rd rs1 : Reg) (shamt : BitVec 5) : Statement (.slliw rd rs1 shamt) := by
  intro x h
  cases x
  · exact Bool.noConfusion h
  · show decode32 .rv64 (rType 0#7 shamt rs1 1#3 rd 0b0011011#7) = _
    simp [decode32, decodeOpImm32]

theorem srliw (rd rs1 : Reg) (shamt : BitVec 5) : Statement (.srliw rd rs1 shamt) := by
  intro x h
  cases x
  · exact Bool.noConfusion h
  · show decode32 .rv64 (rType 0#7 shamt rs1 5#3 rd 0b0011011#7) = _
    simp [decode32, decodeOpImm32]

theorem sraiw (rd rs1 : Reg) (shamt : BitVec 5) : Statement (.sraiw rd rs1 shamt) := by
  intro x h
  cases x
  · exact Bool.noConfusion h
  · show decode32 .rv64 (rType 32#7 shamt rs1 5#3 rd 0b0011011#7) = _
    simp [decode32, decodeOpImm32]

theorem addw (rd rs1 rs2 : Reg) : Statement (.addw rd rs1 rs2) := by
  intro x h
  cases x
  · exact Bool.noConfusion h
  · show decode32 .rv64 (rType 0#7 rs2 rs1 0#3 rd 0b0111011#7) = _
    simp [decode32, decodeOp32]

theorem subw (rd rs1 rs2 : Reg) : Statement (.subw rd rs1 rs2) := by
  intro x h
  cases x
  · exact Bool.noConfusion h
  · show decode32 .rv64 (rType 32#7 rs2 rs1 0#3 rd 0b0111011#7) = _
    simp [decode32, decodeOp32]

theorem sllw (rd rs1 rs2 : Reg) : Statement (.sllw rd rs1 rs2) := by
  intro x h
  cases x
  · exact Bool.noConfusion h
  · show decode32 .rv64 (rType 0#7 rs2 rs1 1#3 rd 0b0111011#7) = _
    simp [decode32, decodeOp32]

theorem srlw (rd rs1 rs2 : Reg) : Statement (.srlw rd rs1 rs2) := by
  intro x h
  cases x
  · exact Bool.noConfusion h
  · show decode32 .rv64 (rType 0#7 rs2 rs1 5#3 rd 0b0111011#7) = _
    simp [decode32, decodeOp32]

theorem sraw (rd rs1 rs2 : Reg) : Statement (.sraw rd rs1 rs2) := by
  intro x h
  cases x
  · exact Bool.noConfusion h
  · show decode32 .rv64 (rType 32#7 rs2 rs1 5#3 rd 0b0111011#7) = _
    simp [decode32, decodeOp32]

theorem mul (rd rs1 rs2 : Reg) : Statement (.mul rd rs1 rs2) := by
  intro x h
  cases x
  · show decode32 .rv32 (rType 1#7 rs2 rs1 0#3 rd 0b0110011#7) = _
    simp [decode32, decodeOp]
  · show decode32 .rv64 (rType 1#7 rs2 rs1 0#3 rd 0b0110011#7) = _
    simp [decode32, decodeOp]

theorem mulh (rd rs1 rs2 : Reg) : Statement (.mulh rd rs1 rs2) := by
  intro x h
  cases x
  · show decode32 .rv32 (rType 1#7 rs2 rs1 1#3 rd 0b0110011#7) = _
    simp [decode32, decodeOp]
  · show decode32 .rv64 (rType 1#7 rs2 rs1 1#3 rd 0b0110011#7) = _
    simp [decode32, decodeOp]

theorem mulhsu (rd rs1 rs2 : Reg) : Statement (.mulhsu rd rs1 rs2) := by
  intro x h
  cases x
  · show decode32 .rv32 (rType 1#7 rs2 rs1 2#3 rd 0b0110011#7) = _
    simp [decode32, decodeOp]
  · show decode32 .rv64 (rType 1#7 rs2 rs1 2#3 rd 0b0110011#7) = _
    simp [decode32, decodeOp]

theorem mulhu (rd rs1 rs2 : Reg) : Statement (.mulhu rd rs1 rs2) := by
  intro x h
  cases x
  · show decode32 .rv32 (rType 1#7 rs2 rs1 3#3 rd 0b0110011#7) = _
    simp [decode32, decodeOp]
  · show decode32 .rv64 (rType 1#7 rs2 rs1 3#3 rd 0b0110011#7) = _
    simp [decode32, decodeOp]

theorem div (rd rs1 rs2 : Reg) : Statement (.div rd rs1 rs2) := by
  intro x h
  cases x
  · show decode32 .rv32 (rType 1#7 rs2 rs1 4#3 rd 0b0110011#7) = _
    simp [decode32, decodeOp]
  · show decode32 .rv64 (rType 1#7 rs2 rs1 4#3 rd 0b0110011#7) = _
    simp [decode32, decodeOp]

theorem divu (rd rs1 rs2 : Reg) : Statement (.divu rd rs1 rs2) := by
  intro x h
  cases x
  · show decode32 .rv32 (rType 1#7 rs2 rs1 5#3 rd 0b0110011#7) = _
    simp [decode32, decodeOp]
  · show decode32 .rv64 (rType 1#7 rs2 rs1 5#3 rd 0b0110011#7) = _
    simp [decode32, decodeOp]

theorem rem (rd rs1 rs2 : Reg) : Statement (.rem rd rs1 rs2) := by
  intro x h
  cases x
  · show decode32 .rv32 (rType 1#7 rs2 rs1 6#3 rd 0b0110011#7) = _
    simp [decode32, decodeOp]
  · show decode32 .rv64 (rType 1#7 rs2 rs1 6#3 rd 0b0110011#7) = _
    simp [decode32, decodeOp]

theorem remu (rd rs1 rs2 : Reg) : Statement (.remu rd rs1 rs2) := by
  intro x h
  cases x
  · show decode32 .rv32 (rType 1#7 rs2 rs1 7#3 rd 0b0110011#7) = _
    simp [decode32, decodeOp]
  · show decode32 .rv64 (rType 1#7 rs2 rs1 7#3 rd 0b0110011#7) = _
    simp [decode32, decodeOp]

theorem mulw (rd rs1 rs2 : Reg) : Statement (.mulw rd rs1 rs2) := by
  intro x h
  cases x
  · exact Bool.noConfusion h
  · show decode32 .rv64 (rType 1#7 rs2 rs1 0#3 rd 0b0111011#7) = _
    simp [decode32, decodeOp32]

theorem divw (rd rs1 rs2 : Reg) : Statement (.divw rd rs1 rs2) := by
  intro x h
  cases x
  · exact Bool.noConfusion h
  · show decode32 .rv64 (rType 1#7 rs2 rs1 4#3 rd 0b0111011#7) = _
    simp [decode32, decodeOp32]

theorem divuw (rd rs1 rs2 : Reg) : Statement (.divuw rd rs1 rs2) := by
  intro x h
  cases x
  · exact Bool.noConfusion h
  · show decode32 .rv64 (rType 1#7 rs2 rs1 5#3 rd 0b0111011#7) = _
    simp [decode32, decodeOp32]

theorem remw (rd rs1 rs2 : Reg) : Statement (.remw rd rs1 rs2) := by
  intro x h
  cases x
  · exact Bool.noConfusion h
  · show decode32 .rv64 (rType 1#7 rs2 rs1 6#3 rd 0b0111011#7) = _
    simp [decode32, decodeOp32]

theorem remuw (rd rs1 rs2 : Reg) : Statement (.remuw rd rs1 rs2) := by
  intro x h
  cases x
  · exact Bool.noConfusion h
  · show decode32 .rv64 (rType 1#7 rs2 rs1 7#3 rd 0b0111011#7) = _
    simp [decode32, decodeOp32]

theorem jal (rd : Reg) (imm : BitVec 20) : Statement (.jal rd imm) := by
  intro x h
  cases x
  · show decode32 .rv32 (uType (Imm.scatterJ imm) rd 0b1101111#7) = _
    simp [decode32]
  · show decode32 .rv64 (uType (Imm.scatterJ imm) rd 0b1101111#7) = _
    simp [decode32]

theorem jalr (rd rs1 : Reg) (imm : BitVec 12) : Statement (.jalr rd rs1 imm) := by
  intro x h
  cases x
  · show decode32 .rv32 (iType imm rs1 0#3 rd 0b1100111#7) = _
    simp [decode32]
  · show decode32 .rv64 (iType imm rs1 0#3 rd 0b1100111#7) = _
    simp [decode32]

theorem beq (rs1 rs2 : Reg) (imm : BitVec 12) : Statement (.beq rs1 rs2 imm) := by
  intro x h
  cases x
  · show decode32 .rv32 (bType imm rs2 rs1 0#3) = _
    simp [decode32, decodeBranch, bType]
  · show decode32 .rv64 (bType imm rs2 rs1 0#3) = _
    simp [decode32, decodeBranch, bType]

theorem bne (rs1 rs2 : Reg) (imm : BitVec 12) : Statement (.bne rs1 rs2 imm) := by
  intro x h
  cases x
  · show decode32 .rv32 (bType imm rs2 rs1 1#3) = _
    simp [decode32, decodeBranch, bType]
  · show decode32 .rv64 (bType imm rs2 rs1 1#3) = _
    simp [decode32, decodeBranch, bType]

theorem blt (rs1 rs2 : Reg) (imm : BitVec 12) : Statement (.blt rs1 rs2 imm) := by
  intro x h
  cases x
  · show decode32 .rv32 (bType imm rs2 rs1 4#3) = _
    simp [decode32, decodeBranch, bType]
  · show decode32 .rv64 (bType imm rs2 rs1 4#3) = _
    simp [decode32, decodeBranch, bType]

theorem bge (rs1 rs2 : Reg) (imm : BitVec 12) : Statement (.bge rs1 rs2 imm) := by
  intro x h
  cases x
  · show decode32 .rv32 (bType imm rs2 rs1 5#3) = _
    simp [decode32, decodeBranch, bType]
  · show decode32 .rv64 (bType imm rs2 rs1 5#3) = _
    simp [decode32, decodeBranch, bType]

theorem bltu (rs1 rs2 : Reg) (imm : BitVec 12) : Statement (.bltu rs1 rs2 imm) := by
  intro x h
  cases x
  · show decode32 .rv32 (bType imm rs2 rs1 6#3) = _
    simp [decode32, decodeBranch, bType]
  · show decode32 .rv64 (bType imm rs2 rs1 6#3) = _
    simp [decode32, decodeBranch, bType]

theorem bgeu (rs1 rs2 : Reg) (imm : BitVec 12) : Statement (.bgeu rs1 rs2 imm) := by
  intro x h
  cases x
  · show decode32 .rv32 (bType imm rs2 rs1 7#3) = _
    simp [decode32, decodeBranch, bType]
  · show decode32 .rv64 (bType imm rs2 rs1 7#3) = _
    simp [decode32, decodeBranch, bType]

theorem lb (rd rs1 : Reg) (imm : BitVec 12) : Statement (.lb rd rs1 imm) := by
  intro x h
  cases x
  · show decode32 .rv32 (iType imm rs1 0#3 rd 0b0000011#7) = _
    simp [decode32, decodeLoad]
  · show decode32 .rv64 (iType imm rs1 0#3 rd 0b0000011#7) = _
    simp [decode32, decodeLoad]

theorem lh (rd rs1 : Reg) (imm : BitVec 12) : Statement (.lh rd rs1 imm) := by
  intro x h
  cases x
  · show decode32 .rv32 (iType imm rs1 1#3 rd 0b0000011#7) = _
    simp [decode32, decodeLoad]
  · show decode32 .rv64 (iType imm rs1 1#3 rd 0b0000011#7) = _
    simp [decode32, decodeLoad]

theorem lw (rd rs1 : Reg) (imm : BitVec 12) : Statement (.lw rd rs1 imm) := by
  intro x h
  cases x
  · show decode32 .rv32 (iType imm rs1 2#3 rd 0b0000011#7) = _
    simp [decode32, decodeLoad]
  · show decode32 .rv64 (iType imm rs1 2#3 rd 0b0000011#7) = _
    simp [decode32, decodeLoad]

theorem ld (rd rs1 : Reg) (imm : BitVec 12) : Statement (.ld rd rs1 imm) := by
  intro x h
  cases x
  · exact Bool.noConfusion h
  · show decode32 .rv64 (iType imm rs1 3#3 rd 0b0000011#7) = _
    simp [decode32, decodeLoad]

theorem lbu (rd rs1 : Reg) (imm : BitVec 12) : Statement (.lbu rd rs1 imm) := by
  intro x h
  cases x
  · show decode32 .rv32 (iType imm rs1 4#3 rd 0b0000011#7) = _
    simp [decode32, decodeLoad]
  · show decode32 .rv64 (iType imm rs1 4#3 rd 0b0000011#7) = _
    simp [decode32, decodeLoad]

theorem lhu (rd rs1 : Reg) (imm : BitVec 12) : Statement (.lhu rd rs1 imm) := by
  intro x h
  cases x
  · show decode32 .rv32 (iType imm rs1 5#3 rd 0b0000011#7) = _
    simp [decode32, decodeLoad]
  · show decode32 .rv64 (iType imm rs1 5#3 rd 0b0000011#7) = _
    simp [decode32, decodeLoad]

theorem lwu (rd rs1 : Reg) (imm : BitVec 12) : Statement (.lwu rd rs1 imm) := by
  intro x h
  cases x
  · exact Bool.noConfusion h
  · show decode32 .rv64 (iType imm rs1 6#3 rd 0b0000011#7) = _
    simp [decode32, decodeLoad]

theorem sb (rs1 rs2 : Reg) (imm : BitVec 12) : Statement (.sb rs1 rs2 imm) := by
  intro x h
  cases x
  · show decode32 .rv32 (sType imm rs2 rs1 0#3) = _
    simp [decode32, decodeStore, sType]
  · show decode32 .rv64 (sType imm rs2 rs1 0#3) = _
    simp [decode32, decodeStore, sType]

theorem sh (rs1 rs2 : Reg) (imm : BitVec 12) : Statement (.sh rs1 rs2 imm) := by
  intro x h
  cases x
  · show decode32 .rv32 (sType imm rs2 rs1 1#3) = _
    simp [decode32, decodeStore, sType]
  · show decode32 .rv64 (sType imm rs2 rs1 1#3) = _
    simp [decode32, decodeStore, sType]

theorem sw (rs1 rs2 : Reg) (imm : BitVec 12) : Statement (.sw rs1 rs2 imm) := by
  intro x h
  cases x
  · show decode32 .rv32 (sType imm rs2 rs1 2#3) = _
    simp [decode32, decodeStore, sType]
  · show decode32 .rv64 (sType imm rs2 rs1 2#3) = _
    simp [decode32, decodeStore, sType]

theorem sd (rs1 rs2 : Reg) (imm : BitVec 12) : Statement (.sd rs1 rs2 imm) := by
  intro x h
  cases x
  · exact Bool.noConfusion h
  · show decode32 .rv64 (sType imm rs2 rs1 3#3) = _
    simp [decode32, decodeStore, sType]

theorem lrW (aq rl : Bool) (rd rs1 : Reg) : Statement (.lrW aq rl rd rs1) := by
  intro x h
  cases x
  · show decode32 .rv32 (amoType 2#5 aq rl 0#5 rs1 2#3 rd) = _
    simp [decode32, decodeAmoW]
  · show decode32 .rv64 (amoType 2#5 aq rl 0#5 rs1 2#3 rd) = _
    simp [decode32, decodeAmoW]

theorem lrD (aq rl : Bool) (rd rs1 : Reg) : Statement (.lrD aq rl rd rs1) := by
  intro x h
  cases x
  · exact Bool.noConfusion h
  · show decode32 .rv64 (amoType 2#5 aq rl 0#5 rs1 3#3 rd) = _
    simp [decode32, decodeAmoD]

theorem scW (aq rl : Bool) (rd rs1 rs2 : Reg) : Statement (.scW aq rl rd rs1 rs2) := by
  intro x h
  cases x
  · show decode32 .rv32 (amoType 3#5 aq rl rs2 rs1 2#3 rd) = _
    simp [decode32, decodeAmoW]
  · show decode32 .rv64 (amoType 3#5 aq rl rs2 rs1 2#3 rd) = _
    simp [decode32, decodeAmoW]

theorem scD (aq rl : Bool) (rd rs1 rs2 : Reg) : Statement (.scD aq rl rd rs1 rs2) := by
  intro x h
  cases x
  · exact Bool.noConfusion h
  · show decode32 .rv64 (amoType 3#5 aq rl rs2 rs1 3#3 rd) = _
    simp [decode32, decodeAmoD]

theorem amoswapW (aq rl : Bool) (rd rs1 rs2 : Reg) : Statement (.amoswapW aq rl rd rs1 rs2) := by
  intro x h
  cases x
  · show decode32 .rv32 (amoType 1#5 aq rl rs2 rs1 2#3 rd) = _
    simp [decode32, decodeAmoW]
  · show decode32 .rv64 (amoType 1#5 aq rl rs2 rs1 2#3 rd) = _
    simp [decode32, decodeAmoW]

theorem amoswapD (aq rl : Bool) (rd rs1 rs2 : Reg) : Statement (.amoswapD aq rl rd rs1 rs2) := by
  intro x h
  cases x
  · exact Bool.noConfusion h
  · show decode32 .rv64 (amoType 1#5 aq rl rs2 rs1 3#3 rd) = _
    simp [decode32, decodeAmoD]

theorem amoaddW (aq rl : Bool) (rd rs1 rs2 : Reg) : Statement (.amoaddW aq rl rd rs1 rs2) := by
  intro x h
  cases x
  · show decode32 .rv32 (amoType 0#5 aq rl rs2 rs1 2#3 rd) = _
    simp [decode32, decodeAmoW]
  · show decode32 .rv64 (amoType 0#5 aq rl rs2 rs1 2#3 rd) = _
    simp [decode32, decodeAmoW]

theorem amoaddD (aq rl : Bool) (rd rs1 rs2 : Reg) : Statement (.amoaddD aq rl rd rs1 rs2) := by
  intro x h
  cases x
  · exact Bool.noConfusion h
  · show decode32 .rv64 (amoType 0#5 aq rl rs2 rs1 3#3 rd) = _
    simp [decode32, decodeAmoD]

theorem amoxorW (aq rl : Bool) (rd rs1 rs2 : Reg) : Statement (.amoxorW aq rl rd rs1 rs2) := by
  intro x h
  cases x
  · show decode32 .rv32 (amoType 4#5 aq rl rs2 rs1 2#3 rd) = _
    simp [decode32, decodeAmoW]
  · show decode32 .rv64 (amoType 4#5 aq rl rs2 rs1 2#3 rd) = _
    simp [decode32, decodeAmoW]

theorem amoxorD (aq rl : Bool) (rd rs1 rs2 : Reg) : Statement (.amoxorD aq rl rd rs1 rs2) := by
  intro x h
  cases x
  · exact Bool.noConfusion h
  · show decode32 .rv64 (amoType 4#5 aq rl rs2 rs1 3#3 rd) = _
    simp [decode32, decodeAmoD]

theorem amoandW (aq rl : Bool) (rd rs1 rs2 : Reg) : Statement (.amoandW aq rl rd rs1 rs2) := by
  intro x h
  cases x
  · show decode32 .rv32 (amoType 12#5 aq rl rs2 rs1 2#3 rd) = _
    simp [decode32, decodeAmoW]
  · show decode32 .rv64 (amoType 12#5 aq rl rs2 rs1 2#3 rd) = _
    simp [decode32, decodeAmoW]

theorem amoandD (aq rl : Bool) (rd rs1 rs2 : Reg) : Statement (.amoandD aq rl rd rs1 rs2) := by
  intro x h
  cases x
  · exact Bool.noConfusion h
  · show decode32 .rv64 (amoType 12#5 aq rl rs2 rs1 3#3 rd) = _
    simp [decode32, decodeAmoD]

theorem amoorW (aq rl : Bool) (rd rs1 rs2 : Reg) : Statement (.amoorW aq rl rd rs1 rs2) := by
  intro x h
  cases x
  · show decode32 .rv32 (amoType 8#5 aq rl rs2 rs1 2#3 rd) = _
    simp [decode32, decodeAmoW]
  · show decode32 .rv64 (amoType 8#5 aq rl rs2 rs1 2#3 rd) = _
    simp [decode32, decodeAmoW]

theorem amoorD (aq rl : Bool) (rd rs1 rs2 : Reg) : Statement (.amoorD aq rl rd rs1 rs2) := by
  intro x h
  cases x
  · exact Bool.noConfusion h
  · show decode32 .rv64 (amoType 8#5 aq rl rs2 rs1 3#3 rd) = _
    simp [decode32, decodeAmoD]

theorem amominW (aq rl : Bool) (rd rs1 rs2 : Reg) : Statement (.amominW aq rl rd rs1 rs2) := by
  intro x h
  cases x
  · show decode32 .rv32 (amoType 16#5 aq rl rs2 rs1 2#3 rd) = _
    simp [decode32, decodeAmoW]
  · show decode32 .rv64 (amoType 16#5 aq rl rs2 rs1 2#3 rd) = _
    simp [decode32, decodeAmoW]

theorem amominD (aq rl : Bool) (rd rs1 rs2 : Reg) : Statement (.amominD aq rl rd rs1 rs2) := by
  intro x h
  cases x
  · exact Bool.noConfusion h
  · show decode32 .rv64 (amoType 16#5 aq rl rs2 rs1 3#3 rd) = _
    simp [decode32, decodeAmoD]

theorem amomaxW (aq rl : Bool) (rd rs1 rs2 : Reg) : Statement (.amomaxW aq rl rd rs1 rs2) := by
  intro x h
  cases x
  · show decode32 .rv32 (amoType 20#5 aq rl rs2 rs1 2#3 rd) = _
    simp [decode32, decodeAmoW]
  · show decode32 .rv64 (amoType 20#5 aq rl rs2 rs1 2#3 rd) = _
    simp [decode32, decodeAmoW]

theorem amomaxD (aq rl : Bool) (rd rs1 rs2 : Reg) : Statement (.amomaxD aq rl rd rs1 rs2) := by
  intro x h
  cases x
  · exact Bool.noConfusion h
  · show decode32 .rv64 (amoType 20#5 aq rl rs2 rs1 3#3 rd) = _
    simp [decode32, decodeAmoD]

theorem amominuW (aq rl : Bool) (rd rs1 rs2 : Reg) : Statement (.amominuW aq rl rd rs1 rs2) := by
  intro x h
  cases x
  · show decode32 .rv32 (amoType 24#5 aq rl rs2 rs1 2#3 rd) = _
    simp [decode32, decodeAmoW]
  · show decode32 .rv64 (amoType 24#5 aq rl rs2 rs1 2#3 rd) = _
    simp [decode32, decodeAmoW]

theorem amominuD (aq rl : Bool) (rd rs1 rs2 : Reg) : Statement (.amominuD aq rl rd rs1 rs2) := by
  intro x h
  cases x
  · exact Bool.noConfusion h
  · show decode32 .rv64 (amoType 24#5 aq rl rs2 rs1 3#3 rd) = _
    simp [decode32, decodeAmoD]

theorem amomaxuW (aq rl : Bool) (rd rs1 rs2 : Reg) : Statement (.amomaxuW aq rl rd rs1 rs2) := by
  intro x h
  cases x
  · show decode32 .rv32 (amoType 28#5 aq rl rs2 rs1 2#3 rd) = _
    simp [decode32, decodeAmoW]
  · show decode32 .rv64 (amoType 28#5 aq rl rs2 rs1 2#3 rd) = _
    simp [decode32, decodeAmoW]

theorem amomaxuD (aq rl : Bool) (rd rs1 rs2 : Reg) : Statement (.amomaxuD aq rl rd rs1 rs2) := by
  intro x h
  cases x
  · exact Bool.noConfusion h
  · show decode32 .rv64 (amoType 28#5 aq rl rs2 rs1 3#3 rd) = _
    simp [decode32, decodeAmoD]

theorem csrrw (rd rs1 : Reg) (csr : CsrIndex) : Statement (.csrrw rd rs1 csr) := by
  intro x h
  cases x
  · show decode32 .rv32 (iType csr rs1 1#3 rd 0b1110011#7) = _
    simp [decode32, decodeSystem]
  · show decode32 .rv64 (iType csr rs1 1#3 rd 0b1110011#7) = _
    simp [decode32, decodeSystem]

theorem csrrs (rd rs1 : Reg) (csr : CsrIndex) : Statement (.csrrs rd rs1 csr) := by
  intro x h
  cases x
  · show decode32 .rv32 (iType csr rs1 2#3 rd 0b1110011#7) = _
    simp [decode32, decodeSystem]
  · show decode32 .rv64 (iType csr rs1 2#3 rd 0b1110011#7) = _
    simp [decode32, decodeSystem]

theorem csrrc (rd rs1 : Reg) (csr : CsrIndex) : Statement (.csrrc rd rs1 csr) := by
  intro x h
  cases x
  · show decode32 .rv32 (iType csr rs1 3#3 rd 0b1110011#7) = _
    simp [decode32, decodeSystem]
  · show decode32 .rv64 (iType csr rs1 3#3 rd 0b1110011#7) = _
    simp [decode32, decodeSystem]

theorem csrrwi (rd : Reg) (uimm : BitVec 5) (csr : CsrIndex) : Statement (.csrrwi rd uimm csr) := by
  intro x h
  cases x
  · show decode32 .rv32 (iType csr uimm 5#3 rd 0b1110011#7) = _
    simp [decode32, decodeSystem]
  · show decode32 .rv64 (iType csr uimm 5#3 rd 0b1110011#7) = _
    simp [decode32, decodeSystem]

theorem csrrsi (rd : Reg) (uimm : BitVec 5) (csr : CsrIndex) : Statement (.csrrsi rd uimm csr) := by
  intro x h
  cases x
  · show decode32 .rv32 (iType csr uimm 6#3 rd 0b1110011#7) = _
    simp [decode32, decodeSystem]
  · show decode32 .rv64 (iType csr uimm 6#3 rd 0b1110011#7) = _
    simp [decode32, decodeSystem]

theorem csrrci (rd : Reg) (uimm : BitVec 5) (csr : CsrIndex) : Statement (.csrrci rd uimm csr) := by
  intro x h
  cases x
  · show decode32 .rv32 (iType csr uimm 7#3 rd 0b1110011#7) = _
    simp [decode32, decodeSystem]
  · show decode32 .rv64 (iType csr uimm 7#3 rd 0b1110011#7) = _
    simp [decode32, decodeSystem]

theorem fence (fm pred succ : BitVec 4) (rs1 rd : Reg) : Statement (.fence fm pred succ rs1 rd) := by
  intro x h
  cases x
  · show decode32 .rv32 (fenceType fm pred succ rs1 rd) = _
    simp [decode32, decodeMiscMem]
  · show decode32 .rv64 (fenceType fm pred succ rs1 rd) = _
    simp [decode32, decodeMiscMem]

theorem fenceI (imm : BitVec 12) (rs1 rd : Reg) : Statement (.fenceI imm rs1 rd) := by
  intro x h
  cases x
  · show decode32 .rv32 (iType imm rs1 1#3 rd 0b0001111#7) = _
    simp [decode32, decodeMiscMem]
  · show decode32 .rv64 (iType imm rs1 1#3 rd 0b0001111#7) = _
    simp [decode32, decodeMiscMem]

theorem ecall : Statement (.ecall) := by
  intro x h
  cases x <;> rfl

theorem ebreak : Statement (.ebreak) := by
  intro x h
  cases x <;> rfl

theorem sret : Statement (.sret) := by
  intro x h
  cases x <;> rfl

theorem mret : Statement (.mret) := by
  intro x h
  cases x <;> rfl

theorem wfi : Statement (.wfi) := by
  intro x h
  cases x <;> rfl

theorem sfenceVma (rs1 rs2 : Reg) : Statement (.sfenceVma rs1 rs2) := by
  intro x h
  cases x
  · show decode32 .rv32 (rType 9#7 rs2 rs1 0#3 0#5 0b1110011#7) = _
    simp [decode32, decodeSystem, rType_ne (f7 := 9#7) (w := 0x73#32) (by decide),
      rType_ne (f7 := 9#7) (w := 0x100073#32) (by decide), rType_ne (f7 := 9#7) (w := 0x10200073#32) (by decide),
      rType_ne (f7 := 9#7) (w := 0x30200073#32) (by decide), rType_ne (f7 := 9#7) (w := 0x10500073#32) (by decide)]
  · show decode32 .rv64 (rType 9#7 rs2 rs1 0#3 0#5 0b1110011#7) = _
    simp [decode32, decodeSystem, rType_ne (f7 := 9#7) (w := 0x73#32) (by decide),
      rType_ne (f7 := 9#7) (w := 0x100073#32) (by decide), rType_ne (f7 := 9#7) (w := 0x10200073#32) (by decide),
      rType_ne (f7 := 9#7) (w := 0x30200073#32) (by decide), rType_ne (f7 := 9#7) (w := 0x10500073#32) (by decide)]

theorem cAddi4spn (rd : CReg) (uimm : BitVec 8) : Statement (.cAddi4spn rd uimm) := by
  intro x h
  cases x
  · show decode16 .rv32 (ciwType (Imm.scatterSpn uimm) rd) = _
    have h : (decide (uimm ≠ 0#8)) = true := h
    simp at h
    simp [decode16, decodeQ0, h]
  · show decode16 .rv64 (ciwType (Imm.scatterSpn uimm) rd) = _
    have h : (decide (uimm ≠ 0#8)) = true := h
    simp at h
    simp [decode16, decodeQ0, h]

theorem cFld (rd rs1 : CReg) (uimm : BitVec 5) : Statement (.cFld rd rs1 uimm) := by
  intro x h
  cases x
  · show decode16 .rv32 (clType 1#3 (Imm.scatterDHi uimm) rs1 (Imm.scatterDMid uimm) rd) = _
    simp [decode16, decodeQ0]
  · show decode16 .rv64 (clType 1#3 (Imm.scatterDHi uimm) rs1 (Imm.scatterDMid uimm) rd) = _
    simp [decode16, decodeQ0]

theorem cLw (rd rs1 : CReg) (uimm : BitVec 5) : Statement (.cLw rd rs1 uimm) := by
  intro x h
  cases x
  · show decode16 .rv32 (clType 2#3 (Imm.scatterWHi uimm) rs1 (Imm.scatterWMid uimm) rd) = _
    simp [decode16, decodeQ0]
  · show decode16 .rv64 (clType 2#3 (Imm.scatterWHi uimm) rs1 (Imm.scatterWMid uimm) rd) = _
    simp [decode16, decodeQ0]

theorem cFlw (rd rs1 : CReg) (uimm : BitVec 5) : Statement (.cFlw rd rs1 uimm) := by
  intro x h
  cases x
  · show decode16 .rv32 (clType 3#3 (Imm.scatterWHi uimm) rs1 (Imm.scatterWMid uimm) rd) = _
    simp [decode16, decodeQ0]
  · exact Bool.noConfusion h

theorem cLd (rd rs1 : CReg) (uimm : BitVec 5) : Statement (.cLd rd rs1 uimm) := by
  intro x h
  cases x
  · exact Bool.noConfusion h
  · show decode16 .rv64 (clType 3#3 (Imm.scatterDHi uimm) rs1 (Imm.scatterDMid uimm) rd) = _
    simp [decode16, decodeQ0]

theorem cFsd (rs1 rs2 : CReg) (uimm : BitVec 5) : Statement (.cFsd rs1 rs2 uimm) := by
  intro x h
  cases x
  · show decode16 .rv32 (clType 5#3 (Imm.scatterDHi uimm) rs1 (Imm.scatterDMid uimm) rs2) = _
    simp [decode16, decodeQ0]
  · show decode16 .rv64 (clType 5#3 (Imm.scatterDHi uimm) rs1 (Imm.scatterDMid uimm) rs2) = _
    simp [decode16, decodeQ0]

theorem cSw (rs1 rs2 : CReg) (uimm : BitVec 5) : Statement (.cSw rs1 rs2 uimm) := by
  intro x h
  cases x
  · show decode16 .rv32 (clType 6#3 (Imm.scatterWHi uimm) rs1 (Imm.scatterWMid uimm) rs2) = _
    simp [decode16, decodeQ0]
  · show decode16 .rv64 (clType 6#3 (Imm.scatterWHi uimm) rs1 (Imm.scatterWMid uimm) rs2) = _
    simp [decode16, decodeQ0]

theorem cFsw (rs1 rs2 : CReg) (uimm : BitVec 5) : Statement (.cFsw rs1 rs2 uimm) := by
  intro x h
  cases x
  · show decode16 .rv32 (clType 7#3 (Imm.scatterWHi uimm) rs1 (Imm.scatterWMid uimm) rs2) = _
    simp [decode16, decodeQ0]
  · exact Bool.noConfusion h

theorem cSd (rs1 rs2 : CReg) (uimm : BitVec 5) : Statement (.cSd rs1 rs2 uimm) := by
  intro x h
  cases x
  · exact Bool.noConfusion h
  · show decode16 .rv64 (clType 7#3 (Imm.scatterDHi uimm) rs1 (Imm.scatterDMid uimm) rs2) = _
    simp [decode16, decodeQ0]

theorem cNop (imm : BitVec 6) : Statement (.cNop imm) := by
  intro x h
  cases x
  · show decode16 .rv32 (ciType 0#3 (Imm.scatterIB imm) 0#5 (Imm.scatterILo imm) 1#2) = _
    simp [decode16, decodeQ1]
  · show decode16 .rv64 (ciType 0#3 (Imm.scatterIB imm) 0#5 (Imm.scatterILo imm) 1#2) = _
    simp [decode16, decodeQ1]

theorem cAddi (rd : Reg) (imm : BitVec 6) : Statement (.cAddi rd imm) := by
  intro x h
  cases x
  · show decode16 .rv32 (ciType 0#3 (Imm.scatterIB imm) rd (Imm.scatterILo imm) 1#2) = _
    have h : (decide (rd ≠ 0#5)) = true := h
    simp at h
    simp [decode16, decodeQ1, h]
  · show decode16 .rv64 (ciType 0#3 (Imm.scatterIB imm) rd (Imm.scatterILo imm) 1#2) = _
    have h : (decide (rd ≠ 0#5)) = true := h
    simp at h
    simp [decode16, decodeQ1, h]

theorem cJal (imm : BitVec 11) : Statement (.cJal imm) := by
  intro x h
  cases x
  · show decode16 .rv32 (cjType 1#3 (Imm.scatterCJ imm)) = _
    simp [decode16, decodeQ1]
  · exact Bool.noConfusion h

theorem cAddiw (rd : Reg) (imm : BitVec 6) : Statement (.cAddiw rd imm) := by
  intro x h
  cases x
  · exact Bool.noConfusion h
  · show decode16 .rv64 (ciType 1#3 (Imm.scatterIB imm) rd (Imm.scatterILo imm) 1#2) = _
    have h : (decide (rd ≠ 0#5)) = true := h
    simp at h
    simp [decode16, decodeQ1, h]

theorem cLi (rd : Reg) (imm : BitVec 6) : Statement (.cLi rd imm) := by
  intro x h
  cases x
  · show decode16 .rv32 (ciType 2#3 (Imm.scatterIB imm) rd (Imm.scatterILo imm) 1#2) = _
    simp [decode16, decodeQ1]
  · show decode16 .rv64 (ciType 2#3 (Imm.scatterIB imm) rd (Imm.scatterILo imm) 1#2) = _
    simp [decode16, decodeQ1]

theorem cAddi16sp (imm : BitVec 6) : Statement (.cAddi16sp imm) := by
  intro x h
  cases x
  · show decode16 .rv32 (ciType 3#3 (Imm.scatter16B imm) 2#5 (Imm.scatter16Lo imm) 1#2) = _
    have h : (decide (imm ≠ 0#6)) = true := h
    simp at h
    simp [decode16, decodeQ1, h]
  · show decode16 .rv64 (ciType 3#3 (Imm.scatter16B imm) 2#5 (Imm.scatter16Lo imm) 1#2) = _
    have h : (decide (imm ≠ 0#6)) = true := h
    simp at h
    simp [decode16, decodeQ1, h]

theorem cLui (rd : Reg) (imm : BitVec 6) : Statement (.cLui rd imm) := by
  intro x h
  cases x
  · show decode16 .rv32 (ciType 3#3 (Imm.scatterIB imm) rd (Imm.scatterILo imm) 1#2) = _
    have h : ((decide (rd ≠ 2#5) && decide (imm ≠ 0#6))) = true := h
    simp at h
    simp [decode16, decodeQ1, h]
  · show decode16 .rv64 (ciType 3#3 (Imm.scatterIB imm) rd (Imm.scatterILo imm) 1#2) = _
    have h : ((decide (rd ≠ 2#5) && decide (imm ≠ 0#6))) = true := h
    simp at h
    simp [decode16, decodeQ1, h]

theorem cSrli (rd : CReg) (shamt : BitVec 6) : Statement (.cSrli rd shamt) := by
  intro x h
  cases x
  · show decode16 .rv32 (cbAluType (Imm.scatterIB shamt) 0#2 rd (Imm.scatterILo shamt)) = _
    have h : (!shamt.getLsbD 5) = true := h
    simp at h
    simp [decode16, decodeQ1, decodeQ1Alu, h]
  · show decode16 .rv64 (cbAluType (Imm.scatterIB shamt) 0#2 rd (Imm.scatterILo shamt)) = _
    simp [decode16, decodeQ1, decodeQ1Alu]

theorem cSrai (rd : CReg) (shamt : BitVec 6) : Statement (.cSrai rd shamt) := by
  intro x h
  cases x
  · show decode16 .rv32 (cbAluType (Imm.scatterIB shamt) 1#2 rd (Imm.scatterILo shamt)) = _
    have h : (!shamt.getLsbD 5) = true := h
    simp at h
    simp [decode16, decodeQ1, decodeQ1Alu, h]
  · show decode16 .rv64 (cbAluType (Imm.scatterIB shamt) 1#2 rd (Imm.scatterILo shamt)) = _
    simp [decode16, decodeQ1, decodeQ1Alu]

theorem cAndi (rd : CReg) (imm : BitVec 6) : Statement (.cAndi rd imm) := by
  intro x h
  cases x
  · show decode16 .rv32 (cbAluType (Imm.scatterIB imm) 2#2 rd (Imm.scatterILo imm)) = _
    simp [decode16, decodeQ1, decodeQ1Alu]
  · show decode16 .rv64 (cbAluType (Imm.scatterIB imm) 2#2 rd (Imm.scatterILo imm)) = _
    simp [decode16, decodeQ1, decodeQ1Alu]

theorem cSub (rd rs2 : CReg) : Statement (.cSub rd rs2) := by
  intro x h
  cases x
  · show decode16 .rv32 (caType 0#1 rd 0#2 rs2) = _
    simp [decode16, decodeQ1, decodeQ1Alu]
  · show decode16 .rv64 (caType 0#1 rd 0#2 rs2) = _
    simp [decode16, decodeQ1, decodeQ1Alu]

theorem cXor (rd rs2 : CReg) : Statement (.cXor rd rs2) := by
  intro x h
  cases x
  · show decode16 .rv32 (caType 0#1 rd 1#2 rs2) = _
    simp [decode16, decodeQ1, decodeQ1Alu]
  · show decode16 .rv64 (caType 0#1 rd 1#2 rs2) = _
    simp [decode16, decodeQ1, decodeQ1Alu]

theorem cOr (rd rs2 : CReg) : Statement (.cOr rd rs2) := by
  intro x h
  cases x
  · show decode16 .rv32 (caType 0#1 rd 2#2 rs2) = _
    simp [decode16, decodeQ1, decodeQ1Alu]
  · show decode16 .rv64 (caType 0#1 rd 2#2 rs2) = _
    simp [decode16, decodeQ1, decodeQ1Alu]

theorem cAnd (rd rs2 : CReg) : Statement (.cAnd rd rs2) := by
  intro x h
  cases x
  · show decode16 .rv32 (caType 0#1 rd 3#2 rs2) = _
    simp [decode16, decodeQ1, decodeQ1Alu]
  · show decode16 .rv64 (caType 0#1 rd 3#2 rs2) = _
    simp [decode16, decodeQ1, decodeQ1Alu]

theorem cSubw (rd rs2 : CReg) : Statement (.cSubw rd rs2) := by
  intro x h
  cases x
  · exact Bool.noConfusion h
  · show decode16 .rv64 (caType 1#1 rd 0#2 rs2) = _
    simp [decode16, decodeQ1, decodeQ1Alu]

theorem cAddw (rd rs2 : CReg) : Statement (.cAddw rd rs2) := by
  intro x h
  cases x
  · exact Bool.noConfusion h
  · show decode16 .rv64 (caType 1#1 rd 1#2 rs2) = _
    simp [decode16, decodeQ1, decodeQ1Alu]

theorem cJ (imm : BitVec 11) : Statement (.cJ imm) := by
  intro x h
  cases x
  · show decode16 .rv32 (cjType 5#3 (Imm.scatterCJ imm)) = _
    simp [decode16, decodeQ1]
  · show decode16 .rv64 (cjType 5#3 (Imm.scatterCJ imm)) = _
    simp [decode16, decodeQ1]

theorem cBeqz (rs1 : CReg) (imm : BitVec 8) : Statement (.cBeqz rs1 imm) := by
  intro x h
  cases x
  · show decode16 .rv32 (cbType 6#3 (Imm.scatterCBHi imm) rs1 (Imm.scatterCBLo imm)) = _
    simp [decode16, decodeQ1]
  · show decode16 .rv64 (cbType 6#3 (Imm.scatterCBHi imm) rs1 (Imm.scatterCBLo imm)) = _
    simp [decode16, decodeQ1]

theorem cBnez (rs1 : CReg) (imm : BitVec 8) : Statement (.cBnez rs1 imm) := by
  intro x h
  cases x
  · show decode16 .rv32 (cbType 7#3 (Imm.scatterCBHi imm) rs1 (Imm.scatterCBLo imm)) = _
    simp [decode16, decodeQ1]
  · show decode16 .rv64 (cbType 7#3 (Imm.scatterCBHi imm) rs1 (Imm.scatterCBLo imm)) = _
    simp [decode16, decodeQ1]

theorem cSlli (rd : Reg) (shamt : BitVec 6) : Statement (.cSlli rd shamt) := by
  intro x h
  cases x
  · show decode16 .rv32 (ciType 0#3 (Imm.scatterIB shamt) rd (Imm.scatterILo shamt) 2#2) = _
    have h : (!shamt.getLsbD 5) = true := h
    simp at h
    simp [decode16, decodeQ2, h]
  · show decode16 .rv64 (ciType 0#3 (Imm.scatterIB shamt) rd (Imm.scatterILo shamt) 2#2) = _
    simp [decode16, decodeQ2]

theorem cFldsp (rd : Reg) (uimm : BitVec 6) : Statement (.cFldsp rd uimm) := by
  intro x h
  cases x
  · show decode16 .rv32 (ciType 1#3 (Imm.scatterLdspB uimm) rd (Imm.scatterLdspLo uimm) 2#2) = _
    simp [decode16, decodeQ2]
  · show decode16 .rv64 (ciType 1#3 (Imm.scatterLdspB uimm) rd (Imm.scatterLdspLo uimm) 2#2) = _
    simp [decode16, decodeQ2]

theorem cLwsp (rd : Reg) (uimm : BitVec 6) : Statement (.cLwsp rd uimm) := by
  intro x h
  cases x
  · show decode16 .rv32 (ciType 2#3 (Imm.scatterLwspB uimm) rd (Imm.scatterLwspLo uimm) 2#2) = _
    have h : (decide (rd ≠ 0#5)) = true := h
    simp at h
    simp [decode16, decodeQ2, h]
  · show decode16 .rv64 (ciType 2#3 (Imm.scatterLwspB uimm) rd (Imm.scatterLwspLo uimm) 2#2) = _
    have h : (decide (rd ≠ 0#5)) = true := h
    simp at h
    simp [decode16, decodeQ2, h]

theorem cFlwsp (rd : Reg) (uimm : BitVec 6) : Statement (.cFlwsp rd uimm) := by
  intro x h
  cases x
  · show decode16 .rv32 (ciType 3#3 (Imm.scatterLwspB uimm) rd (Imm.scatterLwspLo uimm) 2#2) = _
    simp [decode16, decodeQ2]
  · exact Bool.noConfusion h

theorem cLdsp (rd : Reg) (uimm : BitVec 6) : Statement (.cLdsp rd uimm) := by
  intro x h
  cases x
  · exact Bool.noConfusion h
  · show decode16 .rv64 (ciType 3#3 (Imm.scatterLdspB uimm) rd (Imm.scatterLdspLo uimm) 2#2) = _
    have h : (decide (rd ≠ 0#5)) = true := h
    simp at h
    simp [decode16, decodeQ2, h]

theorem cJr (rs1 : Reg) : Statement (.cJr rs1) := by
  intro x h
  cases x
  · show decode16 .rv32 (ciType 4#3 0#1 rs1 0#5 2#2) = _
    have h : (decide (rs1 ≠ 0#5)) = true := h
    simp at h
    simp [decode16, decodeQ2, decodeQ2Cr, h]
  · show decode16 .rv64 (ciType 4#3 0#1 rs1 0#5 2#2) = _
    have h : (decide (rs1 ≠ 0#5)) = true := h
    simp at h
    simp [decode16, decodeQ2, decodeQ2Cr, h]

theorem cMv (rd rs2 : Reg) : Statement (.cMv rd rs2) := by
  intro x h
  cases x
  · show decode16 .rv32 (ciType 4#3 0#1 rd rs2 2#2) = _
    have h : (decide (rs2 ≠ 0#5)) = true := h
    simp at h
    simp [decode16, decodeQ2, decodeQ2Cr, h]
  · show decode16 .rv64 (ciType 4#3 0#1 rd rs2 2#2) = _
    have h : (decide (rs2 ≠ 0#5)) = true := h
    simp at h
    simp [decode16, decodeQ2, decodeQ2Cr, h]

theorem cEbreak : Statement (.cEbreak) := by
  intro x h
  cases x <;> rfl

theorem cJalr (rs1 : Reg) : Statement (.cJalr rs1) := by
  intro x h
  cases x
  · show decode16 .rv32 (ciType 4#3 1#1 rs1 0#5 2#2) = _
    have h : (decide (rs1 ≠ 0#5)) = true := h
    simp at h
    simp [decode16, decodeQ2, decodeQ2Cr, h]
  · show decode16 .rv64 (ciType 4#3 1#1 rs1 0#5 2#2) = _
    have h : (decide (rs1 ≠ 0#5)) = true := h
    simp at h
    simp [decode16, decodeQ2, decodeQ2Cr, h]

theorem cAdd (rd rs2 : Reg) : Statement (.cAdd rd rs2) := by
  intro x h
  cases x
  · show decode16 .rv32 (ciType 4#3 1#1 rd rs2 2#2) = _
    have h : (decide (rs2 ≠ 0#5)) = true := h
    simp at h
    simp [decode16, decodeQ2, decodeQ2Cr, h]
  · show decode16 .rv64 (ciType 4#3 1#1 rd rs2 2#2) = _
    have h : (decide (rs2 ≠ 0#5)) = true := h
    simp at h
    simp [decode16, decodeQ2, decodeQ2Cr, h]

theorem cFsdsp (rs2 : Reg) (uimm : BitVec 6) : Statement (.cFsdsp rs2 uimm) := by
  intro x h
  cases x
  · show decode16 .rv32 (cssType 5#3 (Imm.scatterSdsp uimm) rs2) = _
    simp [decode16, decodeQ2]
  · show decode16 .rv64 (cssType 5#3 (Imm.scatterSdsp uimm) rs2) = _
    simp [decode16, decodeQ2]

theorem cSwsp (rs2 : Reg) (uimm : BitVec 6) : Statement (.cSwsp rs2 uimm) := by
  intro x h
  cases x
  · show decode16 .rv32 (cssType 6#3 (Imm.scatterSwsp uimm) rs2) = _
    simp [decode16, decodeQ2]
  · show decode16 .rv64 (cssType 6#3 (Imm.scatterSwsp uimm) rs2) = _
    simp [decode16, decodeQ2]

theorem cFswsp (rs2 : Reg) (uimm : BitVec 6) : Statement (.cFswsp rs2 uimm) := by
  intro x h
  cases x
  · show decode16 .rv32 (cssType 7#3 (Imm.scatterSwsp uimm) rs2) = _
    simp [decode16, decodeQ2]
  · exact Bool.noConfusion h

theorem cSdsp (rs2 : Reg) (uimm : BitVec 6) : Statement (.cSdsp rs2 uimm) := by
  intro x h
  cases x
  · exact Bool.noConfusion h
  · show decode16 .rv64 (cssType 7#3 (Imm.scatterSdsp uimm) rs2) = _
    simp [decode16, decodeQ2]

end Sys2Proof.Laws.RoundTrip
end

