-- ==== Sys2Proof/Laws/Step.lean ====
section
/-! SUPPORT. Everything one step can do, said once. -/

namespace Sys2Proof.Machine

open Sys2Proof

/-- A fetch changes nothing but the TLB. -/
theorem fetch_keeps (s : State) : s.fetch.1 = { s with tlb := s.fetch.1.tlb } := by
  unfold State.fetch
  split
  · rfl
  · split
    · dsimp only; split <;> rfl
    · rfl

/-- The TLB a fetch leaves: that of one access, or of two. -/
theorem fetch_tlb (s : State) : s.fetch.1 = s.afterAccess s.pc 2 .fetch
    ∨ s.fetch.1 = (s.afterAccess s.pc 2 .fetch).afterAccess s.pc2 2 .fetch := by
  unfold State.fetch
  split
  · exact .inl rfl
  · split
    · dsimp only; split <;> exact .inr rfl
    · exact .inl rfl

/-- A fetch only hits and inserts. -/
theorem fetch_grown (s : State) : Tlb.Grown s.params s.tlb s.fetch.1.tlb := by
  rcases fetch_tlb s with h | h <;> rw [h]
  · exact accessTlb_grown ..
  · exact (accessTlb_grown s s.pc 2 .fetch).trans (accessTlb_grown (s.afterAccess s.pc 2 .fetch) s.pc2 2 .fetch)

/-- The trap of an instruction that began with `s`, after a fetch that left `s1`, is a trap of `s` once the hits are
undone. -/
theorem Trapped.undoHits {s s1 u : State} (hk : s1 = { s with tlb := s1.tlb }) (hg : Tlb.Grown s.params s.tlb s1.tlb)
    (h : Trapped s1.clearTrapped u) : Trapped s (s.undoHits u) := by
  obtain ⟨tlb, e, tval, ht, rfl⟩ := h
  have hp : s1.clearTrapped.params = s.params := by rw [hk]; rfl
  rw [hp] at ht
  rw [hk]
  exact ⟨s.tlb.keepFills tlb, e, tval, keepFills_onlyFills (hg.trans ht.grown), rfl⟩

/-- A step of a halted hart, an interrupt entry, a trap (of the fetch, the decode or the instruction), or the instruction
that was decoded, executed in a state that differs from the first one in the TLB and the mark of a trap alone. -/
theorem step_next {s t : State} (h : step s = .next t) :
    (s.haltRequested = true ∧ t = s)
    ∨ (∃ code target, s.interruptPending = some (code, target) ∧ t = s.takeInterrupt code target)
    ∨ Trapped s t
    ∨ (∃ iw i, s.fetch.2 = .ok iw ∧ decodeInst s.params.xlen s.params.cEnabled iw = .ok i ∧ t.trapped = false
        ∧ exec i s.fetch.1.clearTrapped = .next t) := by
  have raised : ∀ (e : Exc) (v : Word), Trapped s (s.undoHits (s.fetch.1.excState e v)) := fun e v =>
    .undoHits (fetch_keeps s) (fetch_grown s) (trapped_self s.fetch.1.clearTrapped e v)
  unfold step State.boundary at h
  by_cases hh : s.haltRequested = true
  · simp only [hh, if_true] at h; cases h; exact .inl ⟨hh, rfl⟩
  · simp only [hh] at h
    cases hi : s.interruptPending with
    | some p => obtain ⟨c, g⟩ := p; simp only [hi] at h; cases h; exact .inr (.inl ⟨c, g, rfl, rfl⟩)
    | none =>
      simp only [hi] at h
      unfold State.fetchInstr at h
      cases hf : s.fetch with
      | mk s1 r =>
        rw [hf] at h raised
        cases r with
        | error e => obtain ⟨e, v⟩ := e; cases h; exact .inr (.inr (.inl (raised e v)))
        | ok iw =>
          cases hd : decodeInst s.params.xlen s.params.cEnabled iw with
          | error r => simp only [hd] at h; cases h; exact .inr (.inr (.inl (raised _ _)))
          | ok i =>
            simp only [hd] at h
            cases hx : exec i s1.clearTrapped with
            | next u =>
              rw [hx] at h; cases h
              by_cases hu : u.trapped = true
              · have hk := fetch_keeps s; have hg := fetch_grown s
                rw [hf] at hk hg
                exact .inr (.inr (.inl (by rw [if_pos hu]; exact .undoHits hk hg (exec_trapped rfl hx hu))))
              · rw [if_neg hu]
                exact .inr (.inr (.inr ⟨iw, i, rfl, hd, Bool.eq_false_iff.2 hu, hx⟩))
            | fault f => cases f
            | refused r => rw [hx] at h; cases h

end Sys2Proof.Machine
end

