-- ==== Sys2Proof/Tests/Slice0.lean ====
section
/-! SUPPORT. The model's own tests.  The expected results are the worked vectors of spec/95_test_vectors.md, by their
names, or hand calculation from the rule named; the words are written from the rows of spec/opcode_table.json. -/

namespace Sys2Proof.Tests

open Sys2Proof Sys2Proof.Machine

/-! ### Well-formedness: each check refuses an ill-formed term -/

/-- A row of the other XLEN (R229, R230, R242). -/
theorem test_wellFormed_xlen :
    wellFormed .rv32 (.addw 1#5 2#5 3#5) = false ∧ wellFormed .rv64 (.addw 1#5 2#5 3#5) = true
    ∧ wellFormed .rv32 (.cLd 1#3 2#3 3#5) = false ∧ wellFormed .rv64 (.cJal 5#11) = false
    ∧ wellFormed .rv32 (.cJal 5#11) = true := by decide

/-- A shift amount with bit 5 on RV32 (R230, R244 item 8). -/
theorem test_wellFormed_shamt :
    wellFormed .rv32 (.slli 1#5 2#5 32#6) = false ∧ wellFormed .rv32 (.srli 1#5 2#5 32#6) = false
    ∧ wellFormed .rv32 (.srai 1#5 2#5 63#6) = false ∧ wellFormed .rv32 (.srai 1#5 2#5 31#6) = true
    ∧ wellFormed .rv64 (.srai 1#5 2#5 63#6) = true ∧ wellFormed .rv32 (.cSlli 1#5 32#6) = false
    ∧ wellFormed .rv32 (.cSrli 1#3 32#6) = false ∧ wellFormed .rv32 (.cSrai 1#3 32#6) = false := by decide

/-- The reserved compressed code points and those of another row (R242, R244). -/
theorem test_wellFormed_compressed :
    wellFormed .rv64 (.cAddi4spn 1#3 0#8) = false ∧ wellFormed .rv64 (.cAddi 0#5 1#6) = false
    ∧ wellFormed .rv64 (.cAddiw 0#5 1#6) = false ∧ wellFormed .rv64 (.cLwsp 0#5 1#6) = false
    ∧ wellFormed .rv64 (.cLdsp 0#5 1#6) = false ∧ wellFormed .rv64 (.cAddi16sp 0#6) = false
    ∧ wellFormed .rv64 (.cLui 2#5 1#6) = false ∧ wellFormed .rv64 (.cLui 3#5 0#6) = false
    ∧ wellFormed .rv64 (.cJr 0#5) = false ∧ wellFormed .rv64 (.cJalr 0#5) = false
    ∧ wellFormed .rv64 (.cMv 1#5 0#5) = false ∧ wellFormed .rv64 (.cAdd 1#5 0#5) = false := by decide

/-! ### Decoding: every constructor, from a word of its row with distinct fields -/

/-- What the 64-bit machine decodes. -/
def d64 (iw : InstWord) : Option Instr := (decodeInst .rv64 true iw).toOption

/-- What the 32-bit machine decodes. -/
def d32 (iw : InstWord) : Option Instr := (decodeInst .rv32 true iw).toOption

/-- Words written from U format (R223, R224, R300, R301). -/
theorem test_decode_lui_auipc :
    d64 (.full 0xC2F20CB7#32) = some (.lui 25#5 0xC2F20#20)
    ∧ d64 (.full 0x5B8BF617#32) = some (.auipc 12#5 0x5B8BF#20) := by decide

/-- Words written from I format and the OP-IMM map (R223, R225, R230). -/
theorem test_decode_op_imm :
    d64 (.full 0x44378713#32) = some (.addi 14#5 15#5 0x443#12)
    ∧ d64 (.full 0xC4282293#32) = some (.slti 5#5 16#5 0xC42#12)
    ∧ d64 (.full 0xD7E63293#32) = some (.sltiu 5#5 12#5 0xD7E#12)
    ∧ d64 (.full 0xC6BBC693#32) = some (.xori 13#5 23#5 0xC6B#12)
    ∧ d64 (.full 0xEC44E693#32) = some (.ori 13#5 9#5 0xEC4#12)
    ∧ d64 (.full 0x2A7AF593#32) = some (.andi 11#5 21#5 0x2A7#12)
    ∧ d64 (.full 0x028F1293#32) = some (.slli 5#5 30#5 40#6)
    ∧ d64 (.full 0x0368DC93#32) = some (.srli 25#5 17#5 54#6)
    ∧ d64 (.full 0x40ABD693#32) = some (.srai 13#5 23#5 10#6) := by decide

/-- Words written from R format and the OP map (R223, R230). -/
theorem test_decode_op :
    d64 (.full 0x01D60EB3#32) = some (.add 29#5 12#5 29#5)
    ∧ d64 (.full 0x408B01B3#32) = some (.sub 3#5 22#5 8#5)
    ∧ d64 (.full 0x01C516B3#32) = some (.sll 13#5 10#5 28#5)
    ∧ d64 (.full 0x0075A5B3#32) = some (.slt 11#5 11#5 7#5)
    ∧ d64 (.full 0x01E530B3#32) = some (.sltu 1#5 10#5 30#5)
    ∧ d64 (.full 0x01B2CD33#32) = some (.xor 26#5 5#5 27#5)
    ∧ d64 (.full 0x0134D2B3#32) = some (.srl 5#5 9#5 19#5)
    ∧ d64 (.full 0x408ADC33#32) = some (.sra 24#5 21#5 8#5)
    ∧ d64 (.full 0x00366CB3#32) = some (.or 25#5 12#5 3#5)
    ∧ d64 (.full 0x010E76B3#32) = some (.and 13#5 28#5 16#5) := by decide

/-- Words written from the OP-IMM-32 and OP-32 maps (R230). -/
theorem test_decode_op_32 :
    d64 (.full 0xB5240C9B#32) = some (.addiw 25#5 8#5 0xB52#12)
    ∧ d64 (.full 0x00819F1B#32) = some (.slliw 30#5 3#5 8#5)
    ∧ d64 (.full 0x007D549B#32) = some (.srliw 9#5 26#5 7#5)
    ∧ d64 (.full 0x4093D31B#32) = some (.sraiw 6#5 7#5 9#5)
    ∧ d64 (.full 0x00B5893B#32) = some (.addw 18#5 11#5 11#5)
    ∧ d64 (.full 0x40D48D3B#32) = some (.subw 26#5 9#5 13#5)
    ∧ d64 (.full 0x01071A3B#32) = some (.sllw 20#5 14#5 16#5)
    ∧ d64 (.full 0x00BBD3BB#32) = some (.srlw 7#5 23#5 11#5)
    ∧ d64 (.full 0x4039523B#32) = some (.sraw 4#5 18#5 3#5) := by decide

/-- Words written from funct7 0000001 of the OP and OP-32 maps (R230). -/
theorem test_decode_muldiv :
    d64 (.full 0x03868AB3#32) = some (.mul 21#5 13#5 24#5)
    ∧ d64 (.full 0x039A9CB3#32) = some (.mulh 25#5 21#5 25#5)
    ∧ d64 (.full 0x037D2C33#32) = some (.mulhsu 24#5 26#5 23#5)
    ∧ d64 (.full 0x0375B2B3#32) = some (.mulhu 5#5 11#5 23#5)
    ∧ d64 (.full 0x02EE4CB3#32) = some (.div 25#5 28#5 14#5)
    ∧ d64 (.full 0x033759B3#32) = some (.divu 19#5 14#5 19#5)
    ∧ d64 (.full 0x02DA6333#32) = some (.rem 6#5 20#5 13#5)
    ∧ d64 (.full 0x032C77B3#32) = some (.remu 15#5 24#5 18#5)
    ∧ d64 (.full 0x03C28E3B#32) = some (.mulw 28#5 5#5 28#5)
    ∧ d64 (.full 0x02484D3B#32) = some (.divw 26#5 16#5 4#5)
    ∧ d64 (.full 0x03EA593B#32) = some (.divuw 18#5 20#5 30#5)
    ∧ d64 (.full 0x03B8643B#32) = some (.remw 8#5 16#5 27#5)
    ∧ d64 (.full 0x02AD793B#32) = some (.remuw 18#5 26#5 10#5) := by decide

/-- Words written from J, I and B formats (R223, R224, R230). -/
theorem test_decode_jump_branch :
    d64 (.full 0x8DA8496F#32) = some (.jal 18#5 0xC206D#20)
    ∧ d64 (.full 0xC2760E67#32) = some (.jalr 28#5 12#5 0xC27#12)
    ∧ d64 (.full 0xE0CA8D63#32) = some (.beq 21#5 12#5 0xB0D#12)
    ∧ d64 (.full 0x452B1FE3#32) = some (.bne 22#5 18#5 0x62F#12)
    ∧ d64 (.full 0xAB0545E3#32) = some (.blt 10#5 16#5 0xD55#12)
    ∧ d64 (.full 0xE1A75E63#32) = some (.bge 14#5 26#5 0xB0E#12)
    ∧ d64 (.full 0x4E7CEAE3#32) = some (.bltu 25#5 7#5 0x67A#12)
    ∧ d64 (.full 0xC6A9F6E3#32) = some (.bgeu 19#5 10#5 0xE36#12) := by decide

/-- Words written from I and S formats, the LOAD and STORE maps (R223, R224, R230). -/
theorem test_decode_load_store :
    d64 (.full 0xD5680683#32) = some (.lb 13#5 16#5 0xD56#12)
    ∧ d64 (.full 0x66891E83#32) = some (.lh 29#5 18#5 0x668#12)
    ∧ d64 (.full 0x9D732083#32) = some (.lw 1#5 6#5 0x9D7#12)
    ∧ d64 (.full 0xD561B203#32) = some (.ld 4#5 3#5 0xD56#12)
    ∧ d64 (.full 0x972BC983#32) = some (.lbu 19#5 23#5 0x972#12)
    ∧ d64 (.full 0xCA135603#32) = some (.lhu 12#5 6#5 0xCA1#12)
    ∧ d64 (.full 0x8795EC83#32) = some (.lwu 25#5 11#5 0x879#12)
    ∧ d64 (.full 0x415E8E23#32) = some (.sb 29#5 21#5 0x41C#12)
    ∧ d64 (.full 0xC7C41923#32) = some (.sh 8#5 28#5 0xC72#12)
    ∧ d64 (.full 0xB8BD21A3#32) = some (.sw 26#5 11#5 0xB83#12)
    ∧ d64 (.full 0x8CD830A3#32) = some (.sd 16#5 13#5 0x8C1#12) := by decide

/-- Words written from the AMO map, LR with rs2 = 0 (R225, R230). -/
theorem test_decode_lr_sc :
    d64 (.full 0x160F25AF#32) = some (.lrW true true 11#5 30#5)
    ∧ d64 (.full 0x1407B22F#32) = some (.lrD true false 4#5 15#5)
    ∧ d64 (.full 0x1C4AA3AF#32) = some (.scW true false 7#5 21#5 4#5)
    ∧ d64 (.full 0x1DAA38AF#32) = some (.scD true false 17#5 20#5 26#5) := by decide

/-- Words written from the AMO map, funct3 010 (R225, R230). -/
theorem test_decode_amo_w :
    d64 (.full 0x0D91A42F#32) = some (.amoswapW true false 8#5 3#5 25#5)
    ∧ d64 (.full 0x01272AAF#32) = some (.amoaddW false false 21#5 14#5 18#5)
    ∧ d64 (.full 0x22ED21AF#32) = some (.amoxorW false true 3#5 26#5 14#5)
    ∧ d64 (.full 0x6118A52F#32) = some (.amoandW false false 10#5 17#5 17#5)
    ∧ d64 (.full 0x4565A62F#32) = some (.amoorW true false 12#5 11#5 22#5)
    ∧ d64 (.full 0x8094242F#32) = some (.amominW false false 8#5 8#5 9#5)
    ∧ d64 (.full 0xA1652C2F#32) = some (.amomaxW false false 24#5 10#5 22#5)
    ∧ d64 (.full 0xC151AAAF#32) = some (.amominuW false false 21#5 3#5 21#5)
    ∧ d64 (.full 0xE475A9AF#32) = some (.amomaxuW true false 19#5 11#5 7#5) := by decide

/-- Words written from the AMO map, funct3 011 (R225, R230). -/
theorem test_decode_amo_d :
    d64 (.full 0x0A6C372F#32) = some (.amoswapD false true 14#5 24#5 6#5)
    ∧ d64 (.full 0x02A532AF#32) = some (.amoaddD false true 5#5 10#5 10#5)
    ∧ d64 (.full 0x279A382F#32) = some (.amoxorD true true 16#5 20#5 25#5)
    ∧ d64 (.full 0x6324352F#32) = some (.amoandD false true 10#5 8#5 18#5)
    ∧ d64 (.full 0x464DB3AF#32) = some (.amoorD true true 7#5 27#5 4#5)
    ∧ d64 (.full 0x835A352F#32) = some (.amominD false true 10#5 20#5 21#5)
    ∧ d64 (.full 0xA4E8BC2F#32) = some (.amomaxD true false 24#5 17#5 14#5)
    ∧ d64 (.full 0xC1ACB92F#32) = some (.amominuD false false 18#5 25#5 26#5)
    ∧ d64 (.full 0xE0D1BD2F#32) = some (.amomaxuD false false 26#5 3#5 13#5) := by decide

/-- Words written from the SYSTEM map (R225, R231). -/
theorem test_decode_csr :
    d64 (.full 0x53E817F3#32) = some (.csrrw 15#5 16#5 0x53E#12)
    ∧ d64 (.full 0x023DA373#32) = some (.csrrs 6#5 27#5 0x23#12)
    ∧ d64 (.full 0x437630F3#32) = some (.csrrc 1#5 12#5 0x437#12)
    ∧ d64 (.full 0x1F59D5F3#32) = some (.csrrwi 11#5 19#5 0x1F5#12)
    ∧ d64 (.full 0xDC75E873#32) = some (.csrrsi 16#5 11#5 0xDC7#12)
    ∧ d64 (.full 0xE47CF4F3#32) = some (.csrrci 9#5 25#5 0xE47#12) := by decide

/-- Words written from MISC-MEM and the exact SYSTEM words (R230, R231). -/
theorem test_decode_system :
    d64 (.full 0x257A8D8F#32) = some (.fence 2#4 5#4 7#4 21#5 27#5)
    ∧ d64 (.full 0x43AF128F#32) = some (.fenceI 0x43A#12 30#5 5#5)
    ∧ d64 (.full 0x00000073#32) = some .ecall
    ∧ d64 (.full 0x00100073#32) = some .ebreak
    ∧ d64 (.full 0x10200073#32) = some .sret
    ∧ d64 (.full 0x30200073#32) = some .mret
    ∧ d64 (.full 0x10500073#32) = some .wfi
    ∧ d64 (.full 0x12AB8073#32) = some (.sfenceVma 23#5 10#5) := by decide

/-- Words written from quadrant 00 on RV64 (R240 to R242). -/
theorem test_decode_quadrant0 :
    d64 (.half 0x178C#16) = some (.cAddi4spn 3#3 0xF8#8)
    ∧ d64 (.half 0x2CEC#16) = some (.cFld 3#3 1#3 27#5)
    ∧ d64 (.half 0x510C#16) = some (.cLw 3#3 2#3 8#5)
    ∧ d64 (.half 0x6DBC#16) = some (.cLd 7#3 3#3 11#5)
    ∧ d64 (.half 0xB208#16) = some (.cFsd 4#3 2#3 4#5)
    ∧ d64 (.half 0xDD8C#16) = some (.cSw 3#3 3#3 14#5)
    ∧ d64 (.half 0xF318#16) = some (.cSd 6#3 6#3 4#5) := by decide

/-- Words written from quadrant 00 on RV32 (R240 to R242). -/
theorem test_decode_quadrant0_rv32 :
    d32 (.half 0x6A2C#16) = some (.cFlw 3#3 4#3 20#5)
    ∧ d32 (.half 0xFA9C#16) = some (.cFsw 5#3 7#3 12#5) := by decide

/-- Words written from quadrant 01 on RV64 (R240 to R242). -/
theorem test_decode_quadrant1 :
    d64 (.half 0x0031#16) = some (.cNop 12#6)
    ∧ d64 (.half 0x0091#16) = some (.cAddi 1#5 4#6)
    ∧ d64 (.half 0x2D9D#16) = some (.cAddiw 27#5 7#6)
    ∧ d64 (.half 0x4A61#16) = some (.cLi 20#5 24#6)
    ∧ d64 (.half 0x6125#16) = some (.cAddi16sp 6#6)
    ∧ d64 (.half 0x695D#16) = some (.cLui 18#5 23#6)
    ∧ d64 (.half 0x9201#16) = some (.cSrli 4#3 32#6)
    ∧ d64 (.half 0x9415#16) = some (.cSrai 0#3 37#6)
    ∧ d64 (.half 0x99B9#16) = some (.cAndi 3#3 46#6)
    ∧ d64 (.half 0x8C89#16) = some (.cSub 1#3 2#3)
    ∧ d64 (.half 0x8EB9#16) = some (.cXor 5#3 6#3)
    ∧ d64 (.half 0x8D51#16) = some (.cOr 2#3 4#3)
    ∧ d64 (.half 0x8E6D#16) = some (.cAnd 4#3 3#3)
    ∧ d64 (.half 0x9F81#16) = some (.cSubw 7#3 0#3)
    ∧ d64 (.half 0x9C35#16) = some (.cAddw 0#3 5#3)
    ∧ d64 (.half 0xA7A5#16) = some (.cJ 0x3B4#11)
    ∧ d64 (.half 0xC921#16) = some (.cBeqz 2#3 0x28#8)
    ∧ d64 (.half 0xEB09#16) = some (.cBnez 6#3 0x9#8) := by decide

/-- Words written from quadrant 01 on RV32 (R240 to R242). -/
theorem test_decode_quadrant1_rv32 :
    d32 (.half 0x3EAD#16) = some (.cJal 0x5BD#11) := by decide

/-- Words written from quadrant 10 on RV64 (R240 to R242). -/
theorem test_decode_quadrant2 :
    d64 (.half 0x1A42#16) = some (.cSlli 20#5 48#6)
    ∧ d64 (.half 0x27EA#16) = some (.cFldsp 15#5 19#6)
    ∧ d64 (.half 0x4232#16) = some (.cLwsp 4#5 3#6)
    ∧ d64 (.half 0x65EE#16) = some (.cLdsp 11#5 27#6)
    ∧ d64 (.half 0x8702#16) = some (.cJr 14#5)
    ∧ d64 (.half 0x8AC2#16) = some (.cMv 21#5 16#5)
    ∧ d64 (.half 0x9002#16) = some .cEbreak
    ∧ d64 (.half 0x9202#16) = some (.cJalr 4#5)
    ∧ d64 (.half 0x9D9E#16) = some (.cAdd 27#5 7#5)
    ∧ d64 (.half 0xA8EE#16) = some (.cFsdsp 27#5 10#6)
    ∧ d64 (.half 0xCDDE#16) = some (.cSwsp 23#5 54#6)
    ∧ d64 (.half 0xE662#16) = some (.cSdsp 24#5 33#6) := by decide

/-- Words written from quadrant 10 on RV32 (R240 to R242). -/
theorem test_decode_quadrant2_rv32 :
    d32 (.half 0x7A4A#16) = some (.cFlwsp 20#5 44#6)
    ∧ d32 (.half 0xE51E#16) = some (.cFswsp 7#5 34#6) := by decide

/-- The decoder refuses by name: no row, the reserved parcels, the forms of the other XLEN (R229 to R232, R244). -/
theorem test_decode_refuses :
    decodeInst .rv64 true (.full 0xFFFFFFFF#32) = .error .noMajorOpcode
    ∧ decodeInst .rv64 true (.full 0x00007003#32) = .error .noFunction
    ∧ d64 (.full 0x1010202F#32) = none ∧ d64 (.full 0x00004073#32) = none ∧ d64 (.full 0x00200073#32) = none
    ∧ d64 (.full 0x12000173#32) = none ∧ d64 (.full 0x80001013#32) = none ∧ d32 (.full 0x02001013#32) = none
    ∧ d32 (.full 0x0005851B#32) = none ∧ d32 (.full 0x100532AF#32) = none
    ∧ decodeInst .rv32 true (.half 0x0000#16) = .error .reservedParcel
    ∧ decodeInst .rv32 true (.half 0x6101#16) = .error .reservedParcel
    ∧ decodeInst .rv64 true (.half 0x8002#16) = .error .reservedParcel
    ∧ decodeInst .rv32 false (.half 0x0001#16) = .error .compressedDisabled := by decide

/-- The table's numbering: the first parcel is the low half (R220, R221); too few bytes are refused. -/
theorem test_decodeTableWord :
    decodeTableWord 32 0x00108513 = some (.addi 10#5 1#5 1#12) ∧ decodeTableWord 16 0xE82A = some (.cSdsp 10#5 2#6)
    ∧ decodeTableWord 32 0xFFFFFFFF = none ∧ decodeTableWord 16 0x0000 = none := by decide

/-! ### One step of every instruction -/

/-- A hart at pc 0x1000 in M, with a trap vector, so that a trap does not halt it (the conventions of file 95). -/
def start (x : Xlen) : State :=
  let s := State.resetWith { Params.hardware x with tlbK := 4 }
  { s with pc := 0x1000#64, csr := { s.csr with mtvec := 0x8000#64 } }

def at32 : State := start .rv32

def at64 : State := start .rv64

/-- `s` after one step that fetches `w`; `s` itself where the step has no next state. -/
def one (s : State) (w : Nat) : State :=
  match step (s.withFetchWord 32 w) with
  | .next t => t
  | .fault _ | .refused _ => s

/-- `x10` after one step of `w`, with `a` in `x11` and `b` in `x12`. -/
def alu (s : State) (a b w : Nat) : Word :=
  (one ((s.setReg 11#5 (BitVec.ofNat 64 a)).setReg 12#5 (BitVec.ofNat 64 b)) w).reg 10#5

/-- `n` bytes of `v` at `a`. -/
def put (s : State) (a n v : Nat) : State := { s with mem := s.mem.writeLE (addrRange a n) (BitVec.ofNat 64 v) }

/-- The `n` bytes at `a`. -/
def get (s : State) (a n : Nat) : Word := s.mem.readLE (addrRange a n)

def mode (s : State) (p : Priv) : State := { s with priv := p }

def reserve (s : State) (a : Nat) (g : Granule) : State :=
  { s with resv := some { addr := BitVec.ofNat 64 a, size := g } }

/-- vector INT-2 (R300) -/
theorem test_lui : (one at64 0x80000537).reg 10#5 = 0xFFFFFFFF80000000#64 := by decide

/-- vector INT-3 (R301, R44) -/
theorem test_auipc :
    let t := one at32 0xFFFFF517
    t.reg 10#5 = 0x0#64 ∧ t.pc = 0x1004#64 := by decide

/-- vector INT-1 (R302) -/
theorem test_addi : (one (at32.setReg 1#5 0x7FFFFFFF#64) 0x00108513).reg 10#5 = 0x80000000#64 := by decide

/-- vector INT-14 (R302, R40) -/
theorem test_addi_to_x0 :
    let t := one at32 0x00500013
    t.reg 0#5 = 0x0#64 ∧ t.pc = 0x1004#64 := by decide

/-- -5 < -4 as signed values (R303) -/
theorem test_slti : (one (at64.setReg 11#5 0xFFFFFFFFFFFFFFFB#64) 0xFFC5A513).reg 10#5 = 0x1#64 := by decide

/-- vector INT-11 (R304) -/
theorem test_sltiu : (one (at32.setReg 11#5 0x5#64) 0xFFF5B513).reg 10#5 = 0x1#64 := by decide

/-- xori with -1 is the complement (R305) -/
theorem test_xori : (one (at64.setReg 11#5 0xF0F0#64) 0xFFF5C513).reg 10#5 = 0xFFFFFFFFFFFF0F0F#64 := by decide

/-- 0x100 | 0xFFFFF800 (R306) -/
theorem test_ori : (one (at32.setReg 11#5 0x100#64) 0x8005E513).reg 10#5 = 0xFFFFF900#64 := by decide

/-- the immediate is sign-extended (R307) -/
theorem test_andi :
    (one (at64.setReg 11#5 0xFFFFFFFFFFFFFFFF#64) 0xFF05F513).reg 10#5 = 0xFFFFFFFFFFFFFFF0#64 := by decide

/-- vector INT-5 (R308) -/
theorem test_slli : (one (at64.setReg 11#5 0x1#64) 0x03F59513).reg 10#5 = 0x8000000000000000#64 := by decide

/-- a logical shift brings in zeros (R309) -/
theorem test_srli : (one (at32.setReg 11#5 0x80000000#64) 0x01F5D513).reg 10#5 = 0x1#64 := by decide

/-- an arithmetic shift brings in the sign (R310) -/
theorem test_srai :
    (one (at64.setReg 11#5 0x8000000000000000#64) 0x43F5D513).reg 10#5 = 0xFFFFFFFFFFFFFFFF#64 := by decide

/-- the sum wraps at XLEN = 32 (R311) -/
theorem test_add : alu at32 0xFFFFFFFF 0x2 0x00C58533 = 0x1#64 := by decide

/-- vector INT-16 (R312) -/
theorem test_sub : (one (at64.setReg 11#5 0xFFFFFFFFFFFFFFFF#64) 0x40B00533).reg 10#5 = 0x1#64 := by decide

/-- the amount is the low 5 bits on RV32 (R313) -/
theorem test_sll : alu at32 0x1 0x3F 0x00C59533 = 0x80000000#64 := by decide

/-- vector INT-13 (R314) -/
theorem test_slt : alu at32 0xFFFFFFFB 0x3 0x00C5A533 = 0x1#64 := by decide

/-- vector INT-13 (R315) -/
theorem test_sltu : alu at32 0xFFFFFFFB 0x3 0x00C5B533 = 0x0#64 := by decide

/-- (R316) -/
theorem test_xor : alu at64 0xFF00 0xFF0 0x00C5C533 = 0xF0F0#64 := by decide

/-- vector INT-7 (R317) -/
theorem test_srl : alu at64 0xFFFFFFFF 0x4 0x00C5D533 = 0xFFFFFFF#64 := by decide

/-- vector INT-6 (R318) -/
theorem test_sra : alu at32 0x80000000 0x21 0x40C5D533 = 0xC0000000#64 := by decide

/-- (R319) -/
theorem test_or : alu at32 0xFF00 0xFF0 0x00C5E533 = 0xFFF0#64 := by decide

/-- (R320) -/
theorem test_and : alu at64 0xFF00 0xFF0 0x00C5F533 = 0xF00#64 := by decide

/-- vector INT-12 (R321) -/
theorem test_addiw : (one (at64.setReg 11#5 0x180000000#64) 0x0005851B).reg 10#5 = 0xFFFFFFFF80000000#64 := by decide

/-- vector INT-15 (R322) -/
theorem test_slliw : (one (at64.setReg 11#5 0xFFFFFFFF#64) 0x01F5951B).reg 10#5 = 0xFFFFFFFF80000000#64 := by decide

/-- only the low word is shifted (R323) -/
theorem test_srliw : (one (at64.setReg 11#5 0xFFFFFFFF80000000#64) 0x0045D51B).reg 10#5 = 0x8000000#64 := by decide

/-- the sign is bit 31 (R324) -/
theorem test_sraiw : (one (at64.setReg 11#5 0x80000000#64) 0x4045D51B).reg 10#5 = 0xFFFFFFFFF8000000#64 := by decide

/-- the 32-bit sum is sign-extended (R325) -/
theorem test_addw : alu at64 0x7FFFFFFF 0x1 0x00C5853B = 0xFFFFFFFF80000000#64 := by decide

/-- vector INT-16 (R326) -/
theorem test_subw : (one (at64.setReg 11#5 0xFFFFFFFFFFFFFFFF#64) 0x40B0063B).reg 12#5 = 0x1#64 := by decide

/-- the amount is the low 5 bits (R327) -/
theorem test_sllw : alu at64 0x1 0x3F 0x00C5953B = 0xFFFFFFFF80000000#64 := by decide

/-- vector INT-9 (R327) -/
theorem test_srlw : alu at64 0x80000000 0x20 0x00C5D53B = 0xFFFFFFFF80000000#64 := by decide

/-- vector INT-10 (R328) -/
theorem test_sraw : alu at64 0x80000000 0x24 0x40C5D53B = 0xFFFFFFFFF8000000#64 := by decide

/-- vector MD-8 (R361) -/
theorem test_mul : alu at64 0x10000 0x10000 0x02C58533 = 0x100000000#64 := by decide

/-- vector MD-2 (R362) -/
theorem test_mulh : alu at32 0xFFFFFFFF 0xFFFFFFFF 0x02C59533 = 0x0#64 := by decide

/-- vector MD-2 (R363) -/
theorem test_mulhsu : alu at32 0xFFFFFFFF 0xFFFFFFFF 0x02C5A533 = 0xFFFFFFFF#64 := by decide

/-- vector MD-2 (R364) -/
theorem test_mulhu : alu at32 0xFFFFFFFF 0xFFFFFFFF 0x02C5B533 = 0xFFFFFFFE#64 := by decide

/-- vector MD-4 (R365, R360) -/
theorem test_div_overflow : alu at32 0x80000000 0xFFFFFFFF 0x02C5C533 = 0x80000000#64 := by decide

/-- vector MD-6: -7 / 2 is -3 (R365) -/
theorem test_div_truncates : alu at32 0xFFFFFFF9 0x2 0x02C5C533 = 0xFFFFFFFD#64 := by decide

/-- vector MD-3 (R366, R360) -/
theorem test_divu_by_zero : alu at32 0x7 0x0 0x02C5D533 = 0xFFFFFFFF#64 := by decide

/-- vector MD-6 (R367) -/
theorem test_rem : alu at32 0xFFFFFFF9 0x2 0x02C5E533 = 0xFFFFFFFF#64 := by decide

/-- vector MD-9 (R367, R360) -/
theorem test_rem_overflow : alu at64 0x8000000000000000 0xFFFFFFFFFFFFFFFF 0x02C5E533 = 0x0#64 := by decide

/-- vector MD-3 (R368, R360) -/
theorem test_remu_by_zero : alu at32 0x7 0x0 0x02C5F533 = 0x7#64 := by decide

/-- vector MD-8 (R369) -/
theorem test_mulw : alu at64 0x10000 0x10000 0x02C5853B = 0x0#64 := by decide

/-- vector MD-5 (R370, R360) -/
theorem test_divw : alu at64 0x80000000 0xFFFFFFFF 0x02C5C53B = 0xFFFFFFFF80000000#64 := by decide

/-- vector MD-7 (R371) -/
theorem test_divuw : alu at64 0xFFFFFFFF00000010 0x3 0x02C5D53B = 0x5#64 := by decide

/-- vector MD-5 (R372, R360) -/
theorem test_remw : alu at64 0x80000000 0xFFFFFFFF 0x02C5E53B = 0x0#64 := by decide

/-- vector MD-7 (R373) -/
theorem test_remuw : alu at64 0xFFFFFFFF00000010 0x3 0x02C5F53B = 0x1#64 := by decide

/-- vector CTL-2 (R391) -/
theorem test_jal : (one at32 0xFFDFF06F).pc = 0xFFC#64 := by decide

/-- vector CTL-3 (R391) -/
theorem test_jal_link :
    let t := one at32 0x008000EF
    t.reg 1#5 = 0x1004#64 ∧ t.pc = 0x1008#64 := by decide

/-- vector CTL-5: the source is read before the link is written (R392) -/
theorem test_jalr :
    let t := one (at32.setReg 11#5 0x2000#64) 0x004585E7
    t.reg 11#5 = 0x1004#64 ∧ t.pc = 0x2004#64 := by decide

/-- vector CTL-6 (R392, R697) -/
theorem test_jalr_halts :
    let t := one at32 0x00008067
    t.pc = 0x0#64 ∧ t.haltRequested = true := by decide

/-- (R393) -/
theorem test_beq : (one ((at32.setReg 11#5 0x7#64).setReg 12#5 0x7#64) 0xFEC58CE3).pc = 0xFF8#64 := by decide

/-- (R394) -/
theorem test_bne : (one ((at32.setReg 11#5 0x7#64).setReg 12#5 0x7#64) 0xFEC59CE3).pc = 0x1004#64 := by decide

/-- vector CTL-8 (R395) -/
theorem test_blt : (one ((at32.setReg 11#5 0xFFFFFFFF#64).setReg 12#5 0x1#64) 0xFEC5CCE3).pc = 0xFF8#64 := by decide

/-- (R396) -/
theorem test_bge : (one ((at32.setReg 11#5 0xFFFFFFFF#64).setReg 12#5 0x1#64) 0xFEC5DCE3).pc = 0x1004#64 := by decide

/-- vector CTL-9 (R397) -/
theorem test_bltu : (one ((at32.setReg 11#5 0xFFFFFFFF#64).setReg 12#5 0x1#64) 0xFEC5ECE3).pc = 0x1004#64 := by decide

/-- (R398) -/
theorem test_bgeu : (one ((at32.setReg 11#5 0xFFFFFFFF#64).setReg 12#5 0x1#64) 0xFEC5FCE3).pc = 0xFF8#64 := by decide

/-- vector LS-1 (R422) -/
theorem test_lb :
    (one (put (at32.setReg 11#5 0x2000#64) 0x1FFF 1 0x80) 0xFFF58503).reg 10#5 = 0xFFFFFF80#64 := by decide

/-- (R423) -/
theorem test_lh :
    (one (put (at64.setReg 11#5 0x2000#64) 0x1FFF 2 0x8001) 0xFFF59503).reg 10#5 = 0xFFFFFFFFFFFF8001#64 := by decide

/-- vector LS-7 (R424) -/
theorem test_lw :
    (one (put (at64.setReg 11#5 0x2000#64) 0x1FFF 4 0x80000000) 0xFFF5A503).reg 10#5 =
      0xFFFFFFFF80000000#64 := by decide

/-- (R425) -/
theorem test_ld :
    (one (put (at64.setReg 11#5 0x2000#64) 0x1FFF 8 0x8899AABBCCDDEEFF) 0xFFF5B503).reg 10#5 =
      0x8899AABBCCDDEEFF#64 := by decide

/-- vector LS-1 (R426) -/
theorem test_lbu : (one (put (at32.setReg 11#5 0x2000#64) 0x1FFF 1 0x80) 0xFFF5C503).reg 10#5 = 0x80#64 := by decide

/-- (R427) -/
theorem test_lhu : (one (put (at32.setReg 11#5 0x2000#64) 0x1FFF 2 0x8001) 0xFFF5D503).reg 10#5 = 0x8001#64 := by decide

/-- vector LS-7 (R428) -/
theorem test_lwu :
    (one (put (at64.setReg 11#5 0x2000#64) 0x1FFF 4 0x80000000) 0xFFF5E503).reg 10#5 = 0x80000000#64 := by decide

/-- vector LS-5 (R424, R143, R420) -/
theorem test_lw_outside_memory :
    let t := one (at64.setReg 11#5 0x8000000000#64) 0x0005A003
    t.csr.mcause = 0x5#64 ∧ t.csr.mtval = 0x8000000000#64 ∧ t.pc = 0x8000#64 := by decide

/-- (R429, R150) -/
theorem test_sb :
    get (one (put ((at32.setReg 11#5 0x2000#64).setReg 12#5 0xAABBCCDD#64) 0x2000 4 0x11111111) 0x00C581A3) 0x2000 4 =
      0xDD111111#64 := by decide

/-- vector LS-8 (R430, R150) -/
theorem test_sh :
    get (one (put ((at32.setReg 11#5 0x2000#64).setReg 12#5 0xAABBCCDD#64) 0x2000 4 0x11111111) 0x00C59023) 0x2000 4 =
      0x1111CCDD#64 := by decide

/-- vector LS-6: nothing is written (R431, R155) -/
theorem test_sw_outside_memory :
    let t := one (at64.setReg 11#5 0x7FFFFFFFFE#64) 0x00B5A023
    t.csr.mcause = 0x7#64 ∧ get t 0x7FFFFFFFFE 2 = 0x0#64 := by decide

/-- (R431) -/
theorem test_sw :
    get (one ((at64.setReg 11#5 0x2000#64).setReg 12#5 0xFFFFFFFFFFFFFFFE#64) 0x00C5A023) 0x2000 8 =
      0xFFFFFFFE#64 := by decide

/-- vector LS-3 (R432, R150) -/
theorem test_sd :
    let t := one ((at64.setReg 11#5 0x2000#64).setReg 12#5 0x102030405060708#64) 0x00C5B0A3
    get t 0x2001 1 = 0x8#64 ∧ get t 0x2008 1 = 0x1#64 := by decide

/-- (R455, R450) -/
theorem test_lr_w :
    let t := one (put (at64.setReg 10#5 0x1100#64) 0x1100 4 0x80000005) 0x100522AF
    t.reg 5#5 = 0xFFFFFFFF80000005#64 ∧ t.resv = some { addr := 0x1100#64, size := .word } := by decide

/-- vector AMO-2 (R455, R152) -/
theorem test_lr_w_misaligned :
    let t := one (at32.setReg 10#5 0x1102#64) 0x100522AF
    t.csr.mcause = 0x4#64 ∧ t.csr.mtval = 0x1102#64 := by decide

/-- (R456, R450) -/
theorem test_lr_d :
    let t := one (put (at64.setReg 10#5 0x1100#64) 0x1100 8 0x8000000000000000) 0x100532AF
    t.reg 5#5 = 0x8000000000000000#64 ∧ t.resv = some { addr := 0x1100#64, size := .double } := by decide

/-- vector AMO-3 (R457, R451) -/
theorem test_sc_w_fails :
    let t := one (put ((at32.setReg 10#5 0x1100#64).setReg 7#5 0x9#64) 0x1100 4 0x5) 0x1875232F
    t.reg 6#5 = 0x1#64 ∧ get t 0x1100 4 = 0x5#64 := by decide

/-- vector AMO-9, second step (R457, R451) -/
theorem test_sc_w :
    let t := one (reserve ((at32.setReg 10#5 0x1100#64).setReg 7#5 0x9#64) 0x1100 .word) 0x1875232F
    t.reg 6#5 = 0x0#64 ∧ get t 0x1100 4 = 0x9#64 ∧ t.resv = none := by decide

/-- (R458, R451) -/
theorem test_sc_d :
    let t := one (reserve ((at64.setReg 10#5 0x1100#64).setReg 7#5 0xFFFFFFFFFFFFFFFF#64) 0x1100 .double) 0x1875332F
    t.reg 6#5 = 0x0#64 ∧ get t 0x1100 8 = 0xFFFFFFFFFFFFFFFF#64 := by decide

/-- the reservation is for another size (R458, R451) -/
theorem test_sc_d_other_size :
    let t := one (reserve ((at64.setReg 10#5 0x1100#64).setReg 7#5 0xFFFFFFFFFFFFFFFF#64) 0x1100 .word) 0x1875332F
    t.reg 6#5 = 0x1#64 ∧ get t 0x1100 8 = 0x0#64 := by decide

/-- (R461, R460) -/
theorem test_amoswap_w :
    let t := one (put ((at64.setReg 10#5 0x1100#64).setReg 6#5 0x12345678#64) 0x1100 4 0x80000001) 0x086522AF
    t.reg 5#5 = 0xFFFFFFFF80000001#64 ∧ get t 0x1100 8 = 0x12345678#64 := by decide

/-- (R462) -/
theorem test_amoswap_d :
    let t := one (put ((at64.setReg 10#5 0x1100#64).setReg 6#5 0x2#64) 0x1100 8 0x8000000000000001) 0x086532AF
    t.reg 5#5 = 0x8000000000000001#64 ∧ get t 0x1100 8 = 0x2#64 := by decide

/-- the 32-bit sum wraps inside the word (R463) -/
theorem test_amoadd_w :
    let t := one (put ((at64.setReg 10#5 0x1100#64).setReg 6#5 0x1#64) 0x1100 4 0xFFFFFFFF) 0x006522AF
    t.reg 5#5 = 0xFFFFFFFFFFFFFFFF#64 ∧ get t 0x1100 8 = 0x0#64 := by decide

/-- vector AMO-4 (R464) -/
theorem test_amoadd_d :
    let t := one (put ((at64.setReg 10#5 0x1100#64).setReg 6#5 0x1#64) 0x1100 8 0xFFFFFFFFFFFFFFFF) 0x006532AF
    t.reg 5#5 = 0xFFFFFFFFFFFFFFFF#64 ∧ get t 0x1100 8 = 0x0#64 := by decide

/-- (R465) -/
theorem test_amoxor_w :
    let t := one (put ((at64.setReg 10#5 0x1100#64).setReg 6#5 0xFF0#64) 0x1100 4 0xFF00) 0x206522AF
    t.reg 5#5 = 0xFF00#64 ∧ get t 0x1100 8 = 0xF0F0#64 := by decide

/-- (R466) -/
theorem test_amoxor_d :
    let t := one (put ((at64.setReg 10#5 0x1100#64).setReg 6#5 0xFFFFFFFFFFFFFFFF#64) 0x1100 8 0xFF00) 0x206532AF
    t.reg 5#5 = 0xFF00#64 ∧ get t 0x1100 8 = 0xFFFFFFFFFFFF00FF#64 := by decide

/-- (R467) -/
theorem test_amoand_w :
    let t := one (put ((at64.setReg 10#5 0x1100#64).setReg 6#5 0xFF0#64) 0x1100 4 0xFF00) 0x606522AF
    t.reg 5#5 = 0xFF00#64 ∧ get t 0x1100 8 = 0xF00#64 := by decide

/-- (R468) -/
theorem test_amoand_d :
    let t := one (put ((at64.setReg 10#5 0x1100#64).setReg 6#5 0xFF0000000#64) 0x1100 8 0xFF00000000) 0x606532AF
    t.reg 5#5 = 0xFF00000000#64 ∧ get t 0x1100 8 = 0xF00000000#64 := by decide

/-- (R469) -/
theorem test_amoor_w :
    let t := one (put ((at64.setReg 10#5 0x1100#64).setReg 6#5 0xFF0#64) 0x1100 4 0xFF00) 0x406522AF
    t.reg 5#5 = 0xFF00#64 ∧ get t 0x1100 8 = 0xFFF0#64 := by decide

/-- (R470) -/
theorem test_amoor_d :
    let t := one (put ((at64.setReg 10#5 0x1100#64).setReg 6#5 0xFF0000000#64) 0x1100 8 0xFF00000000) 0x406532AF
    t.reg 5#5 = 0xFF00000000#64 ∧ get t 0x1100 8 = 0xFFF0000000#64 := by decide

/-- vector AMO-5: -1 is the signed minimum (R471) -/
theorem test_amomin_w :
    let t := one (put ((at64.setReg 10#5 0x1100#64).setReg 6#5 0x1#64) 0x1100 4 0xFFFFFFFF) 0x806522AF
    t.reg 5#5 = 0xFFFFFFFFFFFFFFFF#64 ∧ get t 0x1100 8 = 0xFFFFFFFF#64 := by decide

/-- (R472) -/
theorem test_amomin_d :
    let t := one (put ((at64.setReg 10#5 0x1100#64).setReg 6#5 0x8000000000000000#64) 0x1100 8 0x1) 0x806532AF
    t.reg 5#5 = 0x1#64 ∧ get t 0x1100 8 = 0x8000000000000000#64 := by decide

/-- 1 is the signed maximum (R473) -/
theorem test_amomax_w :
    let t := one (put ((at64.setReg 10#5 0x1100#64).setReg 6#5 0x1#64) 0x1100 4 0xFFFFFFFF) 0xA06522AF
    t.reg 5#5 = 0xFFFFFFFFFFFFFFFF#64 ∧ get t 0x1100 8 = 0x1#64 := by decide

/-- vector AMO-8 (R474) -/
theorem test_amomax_d :
    let t := one (put ((at64.setReg 10#5 0x1100#64).setReg 6#5 0x8000000000000000#64) 0x1100 8 0x1) 0xA06532AF
    t.reg 5#5 = 0x1#64 ∧ get t 0x1100 8 = 0x1#64 := by decide

/-- vector AMO-5 (R475) -/
theorem test_amominu_w :
    let t := one (put ((at64.setReg 10#5 0x1100#64).setReg 6#5 0x1#64) 0x1100 4 0xFFFFFFFF) 0xC06522AF
    t.reg 5#5 = 0xFFFFFFFFFFFFFFFF#64 ∧ get t 0x1100 8 = 0x1#64 := by decide

/-- (R476) -/
theorem test_amominu_d :
    let t := one (put ((at64.setReg 10#5 0x1100#64).setReg 6#5 0x8000000000000000#64) 0x1100 8 0x1) 0xC06532AF
    t.reg 5#5 = 0x1#64 ∧ get t 0x1100 8 = 0x1#64 := by decide

/-- (R477) -/
theorem test_amomaxu_w :
    let t := one (put ((at64.setReg 10#5 0x1100#64).setReg 6#5 0x1#64) 0x1100 4 0xFFFFFFFF) 0xE06522AF
    t.reg 5#5 = 0xFFFFFFFFFFFFFFFF#64 ∧ get t 0x1100 8 = 0xFFFFFFFF#64 := by decide

/-- vector AMO-8 (R478) -/
theorem test_amomaxu_d :
    let t := one (put ((at64.setReg 10#5 0x1100#64).setReg 6#5 0x8000000000000000#64) 0x1100 8 0x1) 0xE06532AF
    t.reg 5#5 = 0x1#64 ∧ get t 0x1100 8 = 0x8000000000000000#64 := by decide

/-- vector CSR-2 (R492, R80) -/
theorem test_csrrw_mstatus :
    let t := one (at64.setReg 5#5 0xFFFFFFFFFFFFFFFF#64) 0x30029373
    t.reg 6#5 = 0xA00000000#64 ∧ t.readCsr .mstatus = 0xA000E19AA#64 := by decide

/-- vector CSR-8 (R492, R90) -/
theorem test_csrrw_satp_mode : (one (at64.setReg 5#5 0x9000000000000123#64) 0x18029073).csr.satp = 0x0#64 := by decide

/-- vector CSR-10 (R493, R490) -/
theorem test_csrrs :
    let t := one (mode at32 .u) 0x30002373
    t.csr.mcause = 0x2#64 ∧ t.csr.mtval = 0x30002373#64 ∧ t.priv = .m := by decide

/-- vector CSR-12: rs1 = x0 does not write (R493, R75) -/
theorem test_csrrs_read_only :
    let t := one (at32.setReg 6#5 0x7#64) 0xF1402373
    t.reg 6#5 = 0x0#64 ∧ t.pc = 0x1004#64 := by decide

/-- rs1 is read before rd is written (R494) -/
theorem test_csrrc :
    let t := one ((at64.writeCsr .mscratch 0xFF#64).setReg 5#5 0xF#64) 0x3402B2F3
    t.reg 5#5 = 0xFF#64 ∧ t.csr.mscratch = 0xF0#64 := by decide

/-- vector CSR-17 (R495) -/
theorem test_csrrwi : (one at32 0x1402D073).csr.sscratch = 0x5#64 := by decide

/-- vector CSR-17, second step (R496) -/
theorem test_csrrsi :
    let t := one (at32.writeCsr .sscratch 0x5#64) 0x14046373
    t.reg 6#5 = 0x5#64 ∧ t.csr.sscratch = 0xD#64 := by decide

/-- vector CSR-17, third step (R497) -/
theorem test_csrrci :
    let t := one (at32.writeCsr .sscratch 0xD#64) 0x1400F3F3
    t.reg 7#5 = 0xD#64 ∧ t.csr.sscratch = 0xC#64 := by decide

/-- vector SYS-11 (R510) -/
theorem test_fence : (one at32 0x0FF0000F).pc = 0x1004#64 := by decide

/-- vector SYS-11 (R511) -/
theorem test_fence_i : (one at32 0x0000100F).pc = 0x1004#64 := by decide

/-- vector SYS-1 (R512, R640, R645) -/
theorem test_ecall :
    let t := one (mode at32 .u) 0x00000073
    t.csr.mepc = 0x1000#64 ∧ t.csr.mcause = 0x8#64 ∧ t.priv = .m ∧ t.pc = 0x8000#64 := by decide

/-- vector SYS-2 (R512, R645) -/
theorem test_ecall_delegated :
    let t := one (mode ((at32.writeCsr .medeleg 0x200#64).writeCsr .stvec 0x9000#64) .s) 0x00000073
    t.csr.scause = 0x9#64 ∧ t.priv = .s ∧ t.pc = 0x9000#64 ∧ t.readCsr .mstatus = 0x100#64 := by decide

/-- vector SYS-3 (R513, R645) -/
theorem test_ebreak :
    let t := one ((at32.writeCsr .medeleg 0xB3FF#64).writeCsr .stvec 0x9000#64) 0x00100073
    t.csr.mcause = 0x3#64 ∧ t.csr.mtval = 0x1000#64 ∧ t.priv = .m := by decide

/-- vector SYS-12 (R517) -/
theorem test_sret :
    let t := one ((at32.writeCsr .mstatus 0x120#64).writeCsr .sepc 0x3000#64) 0x10200073
    t.readCsr .mstatus = 0x22#64 ∧ t.priv = .s ∧ t.pc = 0x3000#64 := by decide

/-- vector SYS-9 (R516) -/
theorem test_mret :
    let t := one ((at32.writeCsr .mstatus 0x20880#64).writeCsr .mepc 0x2000#64) 0x30200073
    t.readCsr .mstatus = 0x88#64 ∧ t.priv = .s ∧ t.pc = 0x2000#64 := by decide

/-- vector SYS-5 (R516, R655) -/
theorem test_mret_in_s :
    let t := one (mode at32 .s) 0x30200073
    t.csr.mcause = 0x2#64 ∧ t.csr.mtval = 0x30200073#64 := by decide

/-- vector SYS-8 (R514) -/
theorem test_wfi : (one (mode at32 .s) 0x10500073).pc = 0x1004#64 := by decide

/-- vector SYS-7 (R514) -/
theorem test_wfi_in_u :
    let t := one (mode at32 .u) 0x10500073
    t.csr.mcause = 0x2#64 ∧ t.pc = 0x8000#64 := by decide

/-- vector SYS-10 (R519) -/
theorem test_sfence_vma_in_u :
    let t := one (mode at32 .u) 0x12000073
    t.csr.mcause = 0x2#64 ∧ t.pc = 0x8000#64 := by decide

/-- vector C-10 (R541) -/
theorem test_c_addi4spn :
    let t := one (at32.setReg 2#5 0x8000#64) 0x0808
    t.reg 10#5 = 0x8010#64 ∧ t.pc = 0x1002#64 := by decide

/-- vector C-9 (R542, R585) -/
theorem test_c_fld :
    let t := one (at64.setReg 10#5 0x100#64) 0x2504
    t.csr.mcause = 0x2#64 ∧ t.csr.mtval = 0x2504#64 := by decide

/-- (R546, R585) -/
theorem test_c_fsd :
    let t := one (at64.setReg 10#5 0x100#64) 0xA504
    t.csr.mcause = 0x2#64 ∧ t.csr.mtval = 0xA504#64 := by decide

/-- (R571, R585) -/
theorem test_c_fldsp :
    let t := one (at64.setReg 10#5 0x100#64) 0x21A2
    t.csr.mcause = 0x2#64 ∧ t.csr.mtval = 0x21A2#64 := by decide

/-- (R580, R585) -/
theorem test_c_fsdsp :
    let t := one (at64.setReg 10#5 0x100#64) 0xA40E
    t.csr.mcause = 0x2#64 ∧ t.csr.mtval = 0xA40E#64 := by decide

/-- (R544, R585) -/
theorem test_c_flw :
    let t := one (at32.setReg 10#5 0x100#64) 0x6504
    t.csr.mcause = 0x2#64 ∧ t.csr.mtval = 0x6504#64 := by decide

/-- (R548, R585) -/
theorem test_c_fsw :
    let t := one (at32.setReg 10#5 0x100#64) 0xE504
    t.csr.mcause = 0x2#64 ∧ t.csr.mtval = 0xE504#64 := by decide

/-- (R573, R585) -/
theorem test_c_flwsp :
    let t := one (at32.setReg 10#5 0x100#64) 0x61A2
    t.csr.mcause = 0x2#64 ∧ t.csr.mtval = 0x61A2#64 := by decide

/-- (R582, R585) -/
theorem test_c_fswsp :
    let t := one (at32.setReg 10#5 0x100#64) 0xE40E
    t.csr.mcause = 0x2#64 ∧ t.csr.mtval = 0xE40E#64 := by decide

/-- vector C-28, second step (R543) -/
theorem test_c_lw : (one (put (at32.setReg 10#5 0x100#64) 0x104 4 0x55) 0x4150).reg 12#5 = 0x55#64 := by decide

/-- (R545) -/
theorem test_c_ld :
    (one (put (at64.setReg 10#5 0x100#64) 0x1C8 8 0x8000000000000000) 0x6570).reg 12#5 =
      0x8000000000000000#64 := by decide

/-- vector C-28 (R547) -/
theorem test_c_sw : get (one ((at32.setReg 10#5 0x100#64).setReg 11#5 0x55#64) 0xC14C) 0x104 4 = 0x55#64 := by decide

/-- (R549) -/
theorem test_c_sd :
    get (one ((at64.setReg 10#5 0x100#64).setReg 11#5 0xFFFFFFFFFFFFFFFE#64) 0xE56C) 0x1C8 8 =
      0xFFFFFFFFFFFFFFFE#64 := by decide

/-- vector C-25 (R550) -/
theorem test_c_nop : (one at32 0x0001).pc = 0x1002#64 := by decide

/-- (R551) -/
theorem test_c_addi : (one (at64.setReg 10#5 0x5#64) 0x1569).reg 10#5 = 0xFFFFFFFFFFFFFFFF#64 := by decide

/-- vector C-7 (R552) -/
theorem test_c_jal :
    let t := one at32 0x2201
    t.reg 1#5 = 0x1002#64 ∧ t.pc = 0x1100#64 := by decide

/-- vector C-18 (R553) -/
theorem test_c_addiw : (one (at64.setReg 10#5 0x7FFFFFFF#64) 0x2505).reg 10#5 = 0xFFFFFFFF80000000#64 := by decide

/-- vector C-24 (R554) -/
theorem test_c_li : (one at32 0x5501).reg 10#5 = 0xFFFFFFE0#64 := by decide

/-- (R555) -/
theorem test_c_addi16sp : (one (at64.setReg 2#5 0x8000#64) 0x7101).reg 2#5 = 0x7E00#64 := by decide

/-- vector C-12 (R556) -/
theorem test_c_lui : (one at64 0x757D).reg 10#5 = 0xFFFFFFFFFFFFF000#64 := by decide

/-- vector C-14 (R557) -/
theorem test_c_srli : (one (at32.setReg 10#5 0x80000000#64) 0x8105).reg 10#5 = 0x40000000#64 := by decide

/-- vector C-13 (R558) -/
theorem test_c_srai : (one (at32.setReg 10#5 0x80000000#64) 0x8505).reg 10#5 = 0xC0000000#64 := by decide

/-- vector C-15 (R559) -/
theorem test_c_andi : (one (at32.setReg 10#5 0xFF#64) 0x9941).reg 10#5 = 0xF0#64 := by decide

/-- vector C-16 (R560) -/
theorem test_c_sub : (one ((at32.setReg 10#5 0x5#64).setReg 11#5 0x7#64) 0x8D0D).reg 10#5 = 0xFFFFFFFE#64 := by decide

/-- (R561) -/
theorem test_c_xor : (one ((at64.setReg 10#5 0xFF00#64).setReg 11#5 0xFF0#64) 0x8D2D).reg 10#5 = 0xF0F0#64 := by decide

/-- (R562) -/
theorem test_c_or : (one ((at64.setReg 10#5 0xFF00#64).setReg 11#5 0xFF0#64) 0x8D4D).reg 10#5 = 0xFFF0#64 := by decide

/-- (R563) -/
theorem test_c_and : (one ((at64.setReg 10#5 0xFF00#64).setReg 11#5 0xFF0#64) 0x8D6D).reg 10#5 = 0xF00#64 := by decide

/-- (R564) -/
theorem test_c_subw :
    (one ((at64.setReg 10#5 0x0#64).setReg 11#5 0x80000000#64) 0x9D0D).reg 10#5 = 0xFFFFFFFF80000000#64 := by decide

/-- vector C-17 (R565) -/
theorem test_c_addw :
    (one ((at64.setReg 10#5 0x7FFFFFFF#64).setReg 11#5 0x1#64) 0x9D2D).reg 10#5 = 0xFFFFFFFF80000000#64 := by decide

/-- vector C-27 (R566) -/
theorem test_c_j : (one at32 0xBFF5).pc = 0xFFC#64 := by decide

/-- vector C-19 (R567) -/
theorem test_c_beqz : (one at32 0xC119).pc = 0x1006#64 := by decide

/-- vector C-20 (R568) -/
theorem test_c_bnez : (one (at32.setReg 10#5 0x1#64) 0xFD7D).pc = 0xFFE#64 := by decide

/-- vector C-5 (R570) -/
theorem test_c_slli : (one (at64.setReg 10#5 0x1#64) 0x1502).reg 10#5 = 0x100000000#64 := by decide

/-- vector C-22 (R572) -/
theorem test_c_lwsp :
    (one (put (at32.setReg 2#5 0x8000#64) 0x8008 4 0xDEADBEEF) 0x4522).reg 10#5 = 0xDEADBEEF#64 := by decide

/-- vector C-23, second step (R574) -/
theorem test_c_ldsp :
    (one (put (at64.setReg 2#5 0x8000#64) 0x8010 8 0x1122334455667788) 0x65C2).reg 11#5 =
      0x1122334455667788#64 := by decide

/-- (R575) -/
theorem test_c_jr :
    let t := one (at64.setReg 5#5 0x2001#64) 0x8282
    t.reg 1#5 = 0x0#64 ∧ t.pc = 0x2000#64 := by decide

/-- vector C-26 (R576) -/
theorem test_c_mv : (one (at32.setReg 11#5 0x9#64) 0x852E).reg 10#5 = 0x9#64 := by decide

/-- vector C-8 (R577) -/
theorem test_c_ebreak :
    let t := one at32 0x9002
    t.csr.mcause = 0x3#64 ∧ t.csr.mtval = 0x1000#64 := by decide

/-- vector C-21 (R578) -/
theorem test_c_jalr :
    let t := one (at32.setReg 5#5 0x2001#64) 0x9282
    t.reg 1#5 = 0x1002#64 ∧ t.pc = 0x2000#64 := by decide

/-- (R579) -/
theorem test_c_add :
    (one ((at64.setReg 10#5 0xFFFFFFFFFFFFFFFF#64).setReg 11#5 0x3#64) 0x952E).reg 10#5 = 0x2#64 := by decide

/-- (R581) -/
theorem test_c_swsp :
    get (one ((at32.setReg 2#5 0x8000#64).setReg 10#5 0xDEADBEEF#64) 0xC3AA) 0x80C4 4 = 0xDEADBEEF#64 := by decide

/-- vector C-23 (R583) -/
theorem test_c_sdsp :
    get (one ((at64.setReg 2#5 0x8000#64).setReg 10#5 0x1122334455667788#64) 0xE82A) 0x8010 8 =
      0x1122334455667788#64 := by decide

/-! ### Whole steps -/

/-- With a pending and enabled software interrupt the step enters it and does not fetch: vector T-2 (R634, R640,
R642). -/
theorem test_step_interrupt :
    let s := at32.writeCsr .mtvec 0x8001#64
    let on := { s.csr.mstatus with mie := true }
    let t := one { s with csr := { s.csr with mip := 2#64, mie := 2#64, mstatus := on } } 0x00100513
    t.csr.mcause = 0x80000001#64 ∧ t.pc = 0x8004#64 ∧ t.readCsr .mstatus = 0x1880#64 ∧ t.reg 10#5 = 0#64 := by decide

/-- A word of no row: vector T-15 (R232, R247). -/
theorem test_step_illegal :
    let t := one at32 0xFFFFFFFF
    t.csr.mcause = 2#64 ∧ t.csr.mtval = 0xFFFFFFFF#64 ∧ t.csr.mepc = 0x1000#64 := by decide

/-- A pc outside physical memory: vector T-16 (R143, R621). -/
theorem test_step_fetch_fault :
    let t := one { at64 with pc := 0x8000000000#64 } 0x00100513
    t.csr.mcause = 1#64 ∧ t.csr.mtval = 0x8000000000#64 ∧ t.csr.mepc = 0x8000000000#64 := by decide

/-- Without a handler the trap halts: vector SYS-4 (R513, R697). -/
theorem test_step_halts :
    let t := one (at32.writeCsr .mtvec 0#64) 0x00100073
    t.pc = 0#64 ∧ t.haltRequested = true := by decide

/-- A halted hart takes no step (R220). -/
theorem test_step_halted : step { at32 with haltRequested := true } = .next { at32 with haltRequested := true } := rfl

/-- The page tables of vector VM-20 in S mode: a root with an identity gigapage and, at 0x40000000, one 4 KiB page on
0x20000, readable and writable. -/
def paged : State :=
  let s := put (put (put (put at64 0x10000 8 0xCF) 0x10008 8 0x4401) 0x11000 8 0x4801) 0x12000 8 0x80C7
  mode (s.writeCsr .satp 0x8000000000000010#64) .s

/-- A translated store: vector VM-20 (R432, R164, R165). -/
theorem test_step_translated_store :
    get (one ((paged.setReg 10#5 0x40000000#64).setReg 11#5 0x1122334455667788#64) 0x00B53023) 0x20000 8 =
      0x1122334455667788#64 := by decide +kernel

/-- An address that is not canonical: vector VM-21 (R425, R164). -/
theorem test_step_not_canonical :
    let t := one (paged.setReg 10#5 0x4000000000#64) 0x00053603
    t.csr.mcause = 13#64 ∧ t.csr.mtval = 0x4000000000#64 := by decide

/-- A raise takes back the stamps its hits renewed, here those of the fetch of ECALL, and leaves what the fetch inserted;
an instruction that completes renews them (R171, R622). -/
theorem test_raise_keeps_stamps :
    let s := one paged 0x00000013
    (one s 0x00000073).tlb = s.tlb ∧ (one s 0x00000073).csr.mcause = 9#64 ∧ (one s 0x00000013).tlb ≠ s.tlb
    ∧ (one paged 0x00000073).tlb.fetch.length = 1 := by decide +kernel

/-- The same of data: a store to a page that the second page of the access fails behind (R160). -/
theorem test_failed_access_keeps_stamps :
    let s := paged.afterAccess 0x40000000#64 8 .store
    s.tlb.store.length = 1 ∧ s.access 0x40000FFC#64 8 .store = .error .storePageFault
    ∧ (s.afterAccess 0x40000FFC#64 8 .store).tlb = s.tlb ∧ (s.afterAccess 0x40000000#64 8 .store).tlb ≠ s.tlb := by
  decide +kernel

/-- `withFetchWord` right after reset: `addi x10, x0, 5` runs as the first instruction. -/
theorem test_reset_runs :
    (one State.reset 0x00500513).reg 10#5 = 5#64 ∧ (one State.reset 0x00500513).pc = 4#64 := by decide

/-- The loader's state (R693): the pc, `sp`, `gp`, `a0`, `a1`, `ra` = 0, the mode and the segment. -/
theorem test_loaded :
    let s := State.loaded { Params.hardware .rv32 with tlbK := 4 }
      { entry := 0x1000#64, sp := 0x800#60, gp := 0x9000#64, a0 := 1#64, a1 := 2#64, user := true,
        segments := [(0x1000, [0x13#8, 0x05#8])] }
    s.pc = 0x1000#64 ∧ s.reg 2#5 = 0x8000#64 ∧ s.reg 3#5 = 0x9000#64 ∧ s.reg 10#5 = 1#64 ∧ s.reg 11#5 = 2#64
    ∧ s.reg 1#5 = 0#64 ∧ s.priv = .u ∧ get s 0x1000 2 = 0x513#64 := by decide

/-- A hart configured to start in S is created there, and an image that is not a user image leaves it there (R9, R100,
R693). -/
theorem test_initial_priv :
    let p := { Params.hardware .rv64 with tlbK := 4, initialPriv := .s }
    let im : Image :=
      { entry := 0#64, sp := 0#60, gp := 0#64, a0 := 0#64, a1 := 0#64, user := false, segments := [] }
    (State.resetWith p).priv = .s ∧ (State.loaded p im).priv = .s
    ∧ (State.loaded p { im with user := true }).priv = .u := by decide

/-- A run stops at its budget, at the host's flag and at the halt (R702). -/
theorem test_run :
    let s := put (put (put at32 0x1000 4 0x00150513) 0x1004 4 0x00150513) 0x1008 2 0x8082
    let after := fun (f : Nat → Bool) (n : Nat) => match s.run f n with
      | .next t => (t.pc, t.reg 10#5, t.haltRequested)
      | .fault _ | .refused _ => (0#64, 0#64, false)
    after (fun _ => false) 2 = (0x1008#64, 2#64, false) ∧ after (fun k => k == 1) 2 = (0x1004#64, 1#64, false)
    ∧ after (fun _ => false) 9 = (0#64, 2#64, true) := by decide +kernel

/-- A poke of memory ends the reservation (R453, R702). -/
theorem test_poke :
    let s := (reserve at32 0x1100 .word).pokeMemory 0x1100 7#8
    s.resv = none ∧ get s 0x1100 1 = 7#64 := by decide

/-! ### Witnesses: states and operands that meet the hypotheses of each statement -/

/-- The instruction completes. -/
def goes (r : Result) : Bool :=
  match r with
  | .next _ => true
  | .fault _ | .refused _ => false

theorem next_of_goes {r : Result} (h : goes r = true) : ∃ t, r = .next t := by
  cases r with
  | next t => exact ⟨t, rfl⟩
  | fault f => cases f
  | refused f => cases h

/-- A hart without the C extension, and one with STRICT_ALIGN. -/
def noC : State := { at32 with params := { at32.params with cEnabled := false } }

def strict : State := { at64 with params := { at64.params with strictAlign := true } }

/-- `at32` with interrupts `mip`, all of them enabled, delegated by `mideleg`. -/
def pending (p : Priv) (on : Bool) (mip mideleg : Word) : State :=
  { at32 with
    priv := p
    csr := { at32.csr with
      mip := mip, mie := 0xAAA#64, mideleg := mideleg, mstatus := { at32.csr.mstatus with mie := on, sie := on } } }

/-- The hypothesis of DecodeOfEncode and DecodeBytesOfEncode, with each field at a boundary. -/
theorem witness_DecodeOfEncode :
    wellFormed .rv64 (.cSlli 0#5 63#6) = true ∧ wellFormed .rv32 (.jal 31#5 0xFFFFF#20) = true
    ∧ wellFormed .rv32 (.cJal 0x7FF#11) = true ∧ wellFormed .rv64 (.amomaxuD true true 31#5 31#5 31#5) = true := by
  decide

theorem witness_EncodeOfDecode :
    decodeInst .rv32 true (.half 0x2201#16) = .ok (.cJal 0x80#11)
    ∧ decodeInst .rv64 false (.full 0x0000006F#32) = .ok (.jal 0#5 0#20) := by decide

open Parcel in
/-- A parcel for each item, in the order of the statement. -/
theorem witness_ReservedParcelsAreIllegal :
    (quad 0x0000#16 = 0#2 ∧ funct3 0x0000#16 = 0#3 ∧ imm8 0x0000#16 = 0#8)
    ∧ (quad 0x8000#16 = 0#2 ∧ funct3 0x8000#16 = 4#3)
    ∧ (quad 0x2021#16 = 1#2 ∧ funct3 0x2021#16 = 1#3 ∧ rd 0x2021#16 = 0#5)
    ∧ (quad 0x6101#16 = 1#2 ∧ funct3 0x6101#16 = 3#3 ∧ b12 0x6101#16 = 0#1 ∧ lo5 0x6101#16 = 0#5)
    ∧ (quad 0x9C61#16 = 1#2 ∧ funct3 0x9C61#16 = 4#3 ∧ f2 0x9C61#16 = 3#2 ∧ b12 0x9C61#16 = 1#1
      ∧ mid2 0x9C61#16 = 3#2)
    ∧ (quad 0x9C21#16 = 1#2 ∧ funct3 0x9C21#16 = 4#3 ∧ f2 0x9C21#16 = 3#2 ∧ b12 0x9C21#16 = 1#1
      ∧ mid2 0x9C21#16 = 1#2)
    ∧ (quad 0x9401#16 = 1#2 ∧ funct3 0x9401#16 = 4#3 ∧ f2 0x9401#16 = 1#2 ∧ b12 0x9401#16 = 1#1)
    ∧ (quad 0x1002#16 = 2#2 ∧ funct3 0x1002#16 = 0#3 ∧ b12 0x1002#16 = 1#1)
    ∧ (quad 0x4002#16 = 2#2 ∧ funct3 0x4002#16 = 2#3 ∧ rd 0x4002#16 = 0#5)
    ∧ (quad 0x6002#16 = 2#2 ∧ funct3 0x6002#16 = 3#3 ∧ rd 0x6002#16 = 0#5)
    ∧ (quad 0x8002#16 = 2#2 ∧ funct3 0x8002#16 = 4#3 ∧ b12 0x8002#16 = 0#1 ∧ rd 0x8002#16 = 0#5
      ∧ lo5 0x8002#16 = 0#5) := by decide

/-- The same parcels are refused where they are reserved (R244). -/
theorem test_decode_reserved :
    ([0x0000#16, 0x8000#16, 0x6101#16, 0x6181#16, 0x9C41#16, 0x9C61#16, 0x4002#16, 0x8002#16].all fun c =>
      d32 (.half c) == none && d64 (.half c) == none) = true
    ∧ ([0x2021#16, 0x6002#16].all fun c => d64 (.half c) == none) = true
    ∧ ([0x9C01#16, 0x9C21#16, 0x9001#16, 0x9401#16, 0x1002#16].all fun c => d32 (.half c) == none) = true := by
  decide +kernel

/-- An instruction at the pc of `at64`. -/
def fetching : State := put at64 0x1000 4 0x00108513

theorem witness_StepRunsDecodedInstruction :
    fetching.haltRequested = false ∧ fetching.interruptPending = none ∧ fetching.translating .fetch = false
    ∧ fetching.params.paBits ≤ fetching.params.xlen.bits
    ∧ (∀ k, k < 4 → accessible fetching.params (fetching.pc.toNat + k) = true)
    ∧ takeWord ((addrRange fetching.pc.toNat 4).map fetching.mem.read) = .ok (.full 0x00108513#32, [])
    ∧ decodeInst fetching.params.xlen fetching.params.cEnabled (.full 0x00108513#32) = .ok (.addi 10#5 1#5 1#12) :=
  ⟨rfl, rfl, rfl, by decide, by decide, rfl, rfl⟩

/-- The second clause, with a translated fetch. -/
theorem witness_StepRunsDecodedInstruction_translated :
    let v := put paged 0x1000 4 0x00108513
    v.haltRequested = false ∧ v.interruptPending = none ∧ v.translating .fetch = true
    ∧ v.fetch.2 = .ok (.full 0x00108513#32) := ⟨rfl, rfl, rfl, by decide +kernel⟩

/-- The third clause, on both sides of its equivalence. -/
theorem witness_StepRunsDecodedInstruction_mark :
    at64.trapped = false ∧ Trapped at64 (at64.excState .breakpoint at64.pc)
    ∧ exec .ebreak at64 = .next (at64.excState .breakpoint at64.pc) ∧ exec (.cNop 0#6) at64 = .next (at64.advance 2)
    ∧ (at64.advance 2).trapped = false := ⟨rfl, trapped_self .., rfl, rfl, rfl⟩

/-- Each clause; the last one is met by the trap of test_raise_keeps_stamps. -/
theorem witness_FetchAndDecodeTraps :
    let s := { at64 with pc := 0x8000000000#64 }
    let v := put { at64 with pc := 0x7FFFFFFFFE#64 } 0x7FFFFFFFFE 1 0x13
    (s.haltRequested = false ∧ s.interruptPending = none
      ∧ s.access s.pc 2 .fetch = .error .instructionAccessFault)
    ∧ (v.access v.pc 2 .fetch = .ok [0x7FFFFFFFFE, 0x7FFFFFFFFF]
      ∧ leNat v.mem [0x7FFFFFFFFE, 0x7FFFFFFFFF] % 4 = 3
      ∧ (v.afterAccess v.pc 2 .fetch).access (v.npc 2) 2 .fetch = .error .instructionAccessFault)
    ∧ (at64.fetch = (at64, .ok (.half 0#16)) ∧ decodeInst .rv64 true (.half 0#16) = .error .reservedParcel) := by decide

theorem no_candidate {s : State} (h : ∀ c ∈ [11, 3, 7, 9, 1, 5], (s.csr.mip.getLsbD c && s.csr.mie.getLsbD c) = false) :
    ∀ (b : Bool) (d : Nat), ¬ Candidate s b d := by
  rintro b d ⟨hm, h1, h2, -⟩
  simpa [h1, h2] using h d hm

/-- Each clause: a halted hart; an interrupt to M, first and last of the order; one to S; none. -/
theorem witness_StepBoundary :
    ({ at32 with haltRequested := true } : State).haltRequested = true
    ∧ Candidate (pending .m true 0x800#64 0#64) false 11
    ∧ (Candidate (pending .u false 0x20#64 0#64) false 5
      ∧ ∀ d ∈ [11, 3, 7, 9, 1], ¬ Candidate (pending .u false 0x20#64 0#64) false d)
    ∧ (Candidate (pending .s true 0x20#64 0x222#64) true 5
      ∧ (∀ d, ¬ Candidate (pending .s true 0x20#64 0x222#64) false d)
      ∧ ∀ d ∈ [11, 3, 7, 9, 1], ¬ Candidate (pending .s true 0x20#64 0x222#64) true d)
    ∧ ∀ (b : Bool) (d : Nat), ¬ Candidate at32 b d := by
  refine ⟨rfl, by unfold Candidate; decide, ⟨by unfold Candidate; decide, ?_⟩,
    ⟨by unfold Candidate; decide, ?_, ?_⟩, no_candidate (by decide)⟩
  · unfold Candidate; decide
  · rintro d ⟨hm, h1, -, h3⟩
    revert hm h1 h3
    have : ∀ d ∈ [11, 3, 7, 9, 1, 5], (pending .s true 0x20#64 0x222#64).csr.mip.getLsbD d = true →
        (pending .s true 0x20#64 0x222#64).csr.mideleg.getLsbD d ≠ false := by decide
    exact fun hm h1 => this d hm h1
  · unfold Candidate; decide

/-- The codes of the largest exception and the largest interrupt. -/
theorem witness_TrapEntryFields : Exc.code .storePageFault < 16 ∧ 11 < 16 := by decide

/-- Every mode; for EcallEbreakTrap, ReturnFromTrap and SystemPrivilege. -/
theorem witness_modes : (mode at64 .u).priv = .u ∧ (mode at64 .s).priv = .s ∧ at64.priv = .m ∧ (mode at64 .s).priv ≠ .u
    ∧ (mode at64 .u).priv ≠ .m := by decide

/-- A handler that changed a register and memory. -/
theorem witness_LosslessReturn :
    let m := (mode at64 .u).enterTrap false 8 0#64 .m
    let um := put (m.setReg 10#5 7#64) 0x2000 8 1
    let q := (mode at64 .s).enterTrap true 5 0#64 .s
    let uq := put (q.setReg 10#5 7#64) 0x2000 8 1
    PcAligned at64.params at64.pc
    ∧ (um.priv = .m ∧ um.csr.mepc = m.csr.mepc ∧ um.csr.mstatus = m.csr.mstatus)
    ∧ ((mode at64 .s).priv ≠ .m ∧ uq.priv = .s ∧ uq.csr.sepc = q.csr.sepc ∧ uq.csr.mstatus = q.csr.mstatus) := by
  unfold PcAligned; decide

/-- Both clauses; the second on a hart whose TLB holds an entry. -/
theorem witness_TlbInvalidation :
    (mode at64 .s).priv ≠ .u
    ∧ (∃ t, exec (.csrrw 0#5 5#5 0x180#12) (paged.afterAccess 0x40000000#64 8 .load) = .next t)
    ∧ ((paged.afterAccess 0x40000000#64 8 .load).tlb.entries .load).length = 1
    ∧ (∃ t, exec (.csrrsi 0#5 1#5 0x180#12) paged = .next t) ∧ (5#5 : Reg) ≠ 0#5 :=
  ⟨by decide, next_of_goes (by decide), by decide, next_of_goes (by decide), by decide⟩

/-- ShiftImmediateResults and CompressedImmediateResults: the largest amount of each width. -/
theorem witness_shift_amounts : (31#6 : BitVec 6).toNat < Xlen.bits .rv32
  ∧ (63#6 : BitVec 6).toNat < Xlen.bits .rv64 := by
  decide

theorem witness_ComputeFrame :
    (Instr.shape (.sub 0#5 1#5 2#5) = .compute ∧ ∃ t, exec (.sub 0#5 1#5 2#5) at64 = .next t)
    ∧ (Instr.shape .wfi = .idle ∧ ∃ t, exec .wfi (mode at64 .u) = .next t) :=
  ⟨⟨by decide, next_of_goes (by decide)⟩, ⟨by decide, next_of_goes (by decide)⟩⟩

/-- JumpResults and BranchResults: with the C extension any even target is good, without it a multiple of 4. -/
theorem witness_JumpResults :
    at32.goodTarget (truncI .rv32 (uns .rv32 at32.pc + 2 * (1#20 : BitVec 20).toInt))
    ∧ noC.goodTarget (truncI .rv32 (uns .rv32 noC.pc + 2 * (2#20 : BitVec 20).toInt))
    ∧ noC.goodTarget (truncI .rv32 (uns .rv32 noC.pc + 2 * (0xFFE#12 : BitVec 12).toInt))
    ∧ at32.goodTarget (truncI .rv32 ((uns .rv32 (at32.reg 1#5) + (0xFFF#12 : BitVec 12).toInt) / 2 * 2)) := by
  unfold State.goodTarget; decide

/-- Each clause: the target has bit 1 set. -/
theorem witness_MisalignedTargetTraps :
    noC.params.cEnabled = false
    ∧ (truncI noC.params.xlen (uns noC.params.xlen noC.pc + 2 * (1#20 : BitVec 20).toInt)).getLsbD 1 = true
    ∧ (truncI noC.params.xlen ((uns noC.params.xlen (noC.reg 0#5) + (3#12 : BitVec 12).toInt) / 2 * 2)).getLsbD 1 = true
    ∧ (truncI noC.params.xlen (uns noC.params.xlen noC.pc + 2 * (0xFFF#12 : BitVec 12).toInt)).getLsbD 1 = true := by
  decide

theorem witness_ControlFrame :
    (Instr.shape (.jalr 0#5 1#5 0#12) = .jump ∧ ∃ t, exec (.jalr 0#5 1#5 0#12) at64 = .next t)
    ∧ (Instr.shape (.cBeqz 0#3 1#8) = .branch ∧ ∃ t, exec (.cBeqz 0#3 1#8) at64 = .next t) :=
  ⟨⟨by decide, next_of_goes (by decide)⟩, ⟨by decide, next_of_goes (by decide)⟩⟩

/-- LoadResults, StoreResults and AccessGivesDistinctAddresses: the last bytes of memory, a misaligned access, an
aligned
one under STRICT_ALIGN, and a translated one. -/
theorem witness_accesses :
    at64.access 0x7FFFFFFFF8#64 8 .load = .ok (addrRange 0x7FFFFFFFF8 8)
    ∧ at64.params.strictAlign = false ∧ at64.access 0x2001#64 4 .store = .ok [0x2001, 0x2002, 0x2003, 0x2004]
    ∧ (0x2004#64 : Word).toNat % 4 = 0 ∧ strict.access 0x2004#64 4 .load = .ok [0x2004, 0x2005, 0x2006, 0x2007]
    ∧ paged.access 0x40000FFC#64 4 .store = .ok [0x20FFC, 0x20FFD, 0x20FFE, 0x20FFF] ∧ at64.mem.wf := by decide

/-- Each clause. -/
theorem witness_AccessTraps :
    (Instr.shape (.lh 1#5 0#5 1#12) = .load ∧ Instr.dataAccess strict (.lh 1#5 0#5 1#12) = some (1#64, 2, .load)
      ∧ strict.params.strictAlign = true ∧ (1#64 : Word).toNat % 2 ≠ 0)
    ∧ (Instr.shape (.sd 0#5 0#5 4#12) = .store ∧ Instr.dataAccess strict (.sd 0#5 0#5 4#12) = some (4#64, 8, .store)
      ∧ (4#64 : Word).toNat % 8 ≠ 0)
    ∧ (Instr.shape (.lrD false false 1#5 2#5) = .lr
      ∧ Instr.dataAccess (at64.setReg 2#5 4#64) (.lrD false false 1#5 2#5) = some (4#64, 8, .load))
    ∧ (Instr.shape (.amoorW true true 1#5 2#5 3#5) = .amo
      ∧ Instr.dataAccess (at64.setReg 2#5 2#64) (.amoorW true true 1#5 2#5 3#5) = some (2#64, 4, .store)
      ∧ (2#64 : Word).toNat % 4 ≠ 0)
    ∧ (((at64.setReg 2#5 2#64).reg 2#5).toNat % 4 ≠ 0 ∧ ((at64.setReg 2#5 4#64).reg 2#5).toNat % 8 ≠ 0)
    ∧ (Instr.dataAccess (at64.setReg 2#5 0x8000000000#64) (.lb 1#5 2#5 0#12) = some (0x8000000000#64, 1, .load)
      ∧ (0x8000000000#64 : Word).toNat % 1 = 0
      ∧ (at64.setReg 2#5 0x8000000000#64).access 0x8000000000#64 1 .load = .error .loadAccessFault) := by decide

theorem witness_MemoryFrame :
    (Instr.shape (.sw 0#5 1#5 0#12) = .store ∧ ∃ t, exec (.sw 0#5 1#5 0#12) at64 = .next t) ∧ at64.mem.wf
    ∧ (Instr.dataAccess at64 (.sw 0#5 1#5 8#12) = some (8#64, 4, .store)
      ∧ at64.access 8#64 4 .store = .ok [8, 9, 10, 11] ∧ 7 ∉ [8, 9, 10, 11] ∧ 12 ∉ [8, 9, 10, 11]) :=
  ⟨⟨by decide, next_of_goes (by decide)⟩, by decide, by decide⟩

/-- Each clause of LrScResults, and the alignment and the access of AmoWordResults and AmoDoubleResults. -/
theorem witness_LrScResults :
    let s := at64.setReg 2#5 0x2008#64
    (s.reg 2#5).toNat % 4 = 0 ∧ (s.reg 2#5).toNat % 8 = 0
    ∧ s.access (s.reg 2#5) 4 .load = .ok (addrRange 0x2008 4) ∧ s.access (s.reg 2#5) 8 .load = .ok (addrRange 0x2008 8)
    ∧ s.access (s.reg 2#5) 4 .store = .ok (addrRange 0x2008 4)
    ∧ s.access (s.reg 2#5) 8 .store = .ok (addrRange 0x2008 8)
    ∧ (reserve s 0x2008 .word).resv = some { addr := s.reg 2#5, size := .word }
    ∧ (reserve s 0x2008 .double).resv = some { addr := s.reg 2#5, size := .double }
    ∧ s.resv ≠ some { addr := s.reg 2#5, size := .word }
    ∧ (reserve s 0x2008 .word).resv ≠ some { addr := s.reg 2#5, size := .double } := by decide

theorem witness_LrScForwardProgress :
    let s := at64.setReg 2#5 0x2008#64
    let t := { s with resv := some { addr := 0x2008#64, size := .word } }
    ((∃ t, exec (.lrW false false 1#5 2#5) s = .next t ∧ t.resv = some { addr := 0x2008#64, size := .word })
      ∧ (s.reg 2#5).toNat % 4 = 0 ∧ s.access (s.reg 2#5) 4 .load = .ok (addrRange 0x2008 4))
    ∧ (t.reg 2#5 = s.reg 2#5 ∧ t.access (t.reg 2#5) 4 .store = .ok (addrRange 0x2008 4)) ∧ (3#5 : Reg) ≠ 0#5 := by
  refine ⟨⟨?_, by decide, by decide⟩, by decide, by decide⟩
  obtain ⟨t, h⟩ := next_of_goes (r := exec (.lrW false false 1#5 2#5) (at64.setReg 2#5 0x2008#64)) (by decide)
  refine ⟨t, h, ?_⟩
  have : (match exec (.lrW false false 1#5 2#5) (at64.setReg 2#5 0x2008#64) with
      | .next u => decide (u.resv = some { addr := 0x2008#64, size := .word })
      | .fault _ | .refused _ => false) = true := by decide
  rw [h] at this
  exact of_decide_eq_true this

/-- ReservationRule and the rules over all instructions: instructions of several shapes that complete, and a trap. -/
theorem witness_completes :
    (∃ t, exec (.lrD true false 1#5 0#5) at64 = .next t) ∧ (∃ t, exec (.amoaddW true false 1#5 0#5 2#5) at64 = .next t)
    ∧ (∃ t, exec .sret (mode at64 .s) = .next t) ∧ (∃ t, exec (.cFld 0#3 0#3 0#5) at64 = .next t)
    ∧ Trapped at64 (at64.excState .breakpoint at64.pc) :=
  ⟨next_of_goes (by decide), next_of_goes (by decide), next_of_goes (by decide), next_of_goes (by decide),
    trapped_self ..⟩

/-- `ret` with `x1` = 0 halts. -/
theorem witness_HaltOnlyByJumpOrTrap :
    at64.haltRequested = false ∧ (one at64 0x00008067).haltRequested = true := by decide

/-- An illegal access for each form: no such index, a mode too low, a read-only register; and the legal ones. -/
theorem witness_CsrAccessCheck :
    (∀ c, ¬ CsrLegal at64 0xC00#12 True c) ∧ (∀ c, ¬ CsrLegal (mode at64 .u) 0x300#12 (0#5 ≠ 0#5) c)
    ∧ (∀ c, ¬ CsrLegal at64 0xF14#12 (1#5 ≠ 0#5) c) := by
  refine ⟨fun c h => ?_, fun c h => ?_, fun c h => ?_⟩
  · exact absurd h.1 (by cases c <;> decide)
  · exact absurd h.2.1 (by decide)
  · exact h.2.2 (by decide)

theorem witness_CsrInstrResults :
    CsrLegal at64 0x340#12 True .mscratch ∧ CsrLegal at64 0xF14#12 (0#5 ≠ 0#5) .mhartid
    ∧ CsrLegal (mode at64 .s) 0x100#12 (1#5 ≠ 0#5) .sstatus := by
  unfold CsrLegal; decide

/-- CsrWriteThenRead and CsrViews: the reset state and the widest value of each width, an MPP of 2, each MODE of a
vector,
a legal and an unsupported `satp` mode. -/
theorem witness_CsrWriteThenRead :
    CsrInv at32 ∧ CsrInv at64 ∧ Fits .rv32 0xFFFFFFFF#64 ∧ Fits .rv64 0xFFFFFFFFFFFFFFFF#64
    ∧ (0x1000#64 : Word).extractLsb' 11 2 = 2#2 ∧ (0xFFFFFFFF#64 : Word).extractLsb' 11 2 ≠ 2#2
    ∧ (0x8001#64 : Word).toNat % 4 < 2 ∧ 2 ≤ (0x8002#64 : Word).toNat % 4
    ∧ (0x8000000000000123#64 : Word).toNat / 2 ^ 60 = 8 ∧ (0x9000000000000123#64 : Word).toNat / 2 ^ 60 = 9 :=
  ⟨⟨by decide, by decide, by decide, by decide, by decide⟩, ⟨by decide, by decide, by decide, by decide, by decide⟩,
    by unfold Fits; decide, by unfold Fits; decide, by decide, by decide, by decide, by decide, by decide, by decide⟩

/-- Each clause, and the CSR of the instruction. -/
theorem witness_CsrFrame :
    (Instr.shape (.csrrw 1#5 2#5 0x180#12) = .csr ∧ ∃ t, exec (.csrrw 1#5 2#5 0x180#12) at64 = .next t)
    ∧ Csr.home .sstatus ≠ Csr.home .mie ∧ ¬ (Csr.sstatus = .mideleg ∧ (Csr.mie = .sie ∨ Csr.mie = .sip))
    ∧ Csr.sstatus ≠ .satp
    ∧ (CsrForm (.csrrw 1#5 2#5 0x180#12) 0x180#12 ∧ ((0x180#12 : CsrIndex).toNat, Csr.satp) ∈ csrTable) :=
  ⟨⟨by decide, next_of_goes (by decide)⟩, by decide, by decide, by decide, by constructor, by decide⟩

theorem witness_CompressedFloatIsIllegal : Instr.shape (.cFswsp 31#5 63#6) = .noFpu := by decide

theorem witness_StoreThenLoad :
    let s := at64.setReg 1#5 0x7FFFFFFFF8#64
    s.mem.wf ∧ s.params.strictAlign = false ∧ s.translating .load = false ∧ s.translating .store = false
    ∧ (∀ k, k < 8 → accessible s.params ((s.addr 1#5 (imm12 0#12)).toNat + k) = true) ∧ (5#5 : Reg) ≠ 0#5 := by decide

/-- Each clause of UntranslatedAccess: a byte inside and a byte outside memory. -/
theorem witness_UntranslatedAccess :
    at64.translating .fetch = false ∧ (∀ k, k < 4 → accessible at64.params ((0x7FFFFFFFFC#64 : Word).toNat + k) = true)
    ∧ accessible at64.params ((0x7FFFFFFFFE#64 : Word).toNat + 2) = false ∧ Intent.load ≠ .fetch := by decide

/-- `paged` maps 0x40000000 in three steps; the walk of the next page ends in an invalid entry; a table outside memory
is
not read. -/
theorem witness_TranslationOnMiss :
    Walks paged.params paged.mem 0x40000000#64 2 (rootTable .rv64 paged.csr.satp.toNat) (.leaf 0x80C7 0)
    ∧ Walks paged.params paged.mem 0x40001000#64 0 0x12000 .pageFault
    ∧ Walks paged.params paged.mem 0x40001000#64 0 0x8000000000 .accessFault := by
  refine ⟨.pointer 0x4401 (by decide) (by decide +kernel) (by unfold entryBit; decide) (by unfold entryBit; decide)
    (.pointer 0x4801 (by decide) (by decide +kernel) (by unfold entryBit; decide) (by unfold entryBit; decide)
      (.leaf 0x80C7 (by decide) (by decide +kernel) (by unfold entryBit; decide) (by unfold entryBit; decide)
        (by unfold entryBit; decide))), ?_, ?_⟩
  · exact .invalid 0 (by decide) (by decide +kernel) (by unfold entryBit; decide)
  · exact .denied (k := 0) (by decide) (by decide)

/-- The canonical check at its bounds, and no entry that matches. -/
theorem witness_TranslationOnMiss_canonical :
    (∀ e ∈ paged.tlb.entries .load, e.hits .rv64 paged.csr.satp 0x40000000#64 = false)
    ∧ (0x3FFFFFFFFF#64 : Word).toNat / 2 ^ 38 = 0 ∧ (0xFFFFFFC000000000#64 : Word).toNat / 2 ^ 38 = 2 ^ 26 - 1
    ∧ ¬ ((0x4000000000#64 : Word).toNat / 2 ^ 38 = 0 ∨ (0x4000000000#64 : Word).toNat / 2 ^ 38 = 2 ^ 26 - 1) := by
  decide

theorem witness_TlbHitKeepsTranslation :
    1 ≤ paged.params.tlbK ∧ (∀ e ∈ paged.tlb.entries .load, e.stamp ≤ paged.tlb.clock)
    ∧ (paged.translate paged.tlb 0x40000123#64 .load).2 = .ok 0x20123 := by decide

/-- The invariants hold of a state that has run, and the step goes on from it. -/
theorem witness_invariants :
    MemInv paged ∧ AlignInv paged ∧ CsrInv paged ∧ TlbInv paged ∧ ∃ t, step paged = .next t :=
  ⟨⟨by decide, by decide⟩,
    ⟨by unfold PcAligned; decide, by unfold PcAligned; decide, by unfold PcAligned; decide, by unfold TvecOk; decide,
      by unfold TvecOk; decide⟩,
    ⟨by decide, by decide, by decide, by decide, by decide⟩,
    ⟨fun it => by cases it <;> decide, fun it => by cases it <;> decide, fun it => by cases it <;> decide⟩,
    next_of_goes (by decide)⟩

theorem witness_WidthInv : WidthInv at32 ∧ ∃ t, step at32 = .next t :=
  ⟨⟨by unfold Fits; decide, by unfold Fits; decide, fun c => by unfold Fits; cases c <;> decide⟩,
    next_of_goes (by decide)⟩

/-- The two modes of LowerModesKeepMachineState and the two returns of ModeChangesOnlyByTrapOrReturn. -/
theorem witness_LowerModesKeepMachineState :
    ((mode at64 .u).priv = .u ∧ ∃ t, exec (.addi 1#5 0#5 1#12) (mode at64 .u) = .next t)
    ∧ ((mode at64 .s).priv = .s ∧ ∃ t, exec (.csrrw 1#5 2#5 0x140#12) (mode at64 .s) = .next t)
    ∧ (∃ t, exec .sret (mode at64 .s) = .next t) ∧ (at64.priv = .m ∧ ∃ t, exec .mret at64 = .next t) :=
  ⟨⟨by decide, next_of_goes (by decide)⟩, ⟨by decide, next_of_goes (by decide)⟩, next_of_goes (by decide), by decide,
    next_of_goes (by decide)⟩

/-- The sides of the conclusion: a branch that is taken and one that is not, a jump, and the access of a load that traps;
the load that falls through is in the next theorem. -/
theorem witness_CompressedActsAsItsExpansion_sides :
    Instr.expansion (.cBeqz 0#3 1#8) = some (.beq 8#5 0#5 1#12) ∧ BranchTaken at64 (.beq 8#5 0#5 1#12)
    ∧ ¬ BranchTaken at64 (.bne 8#5 0#5 1#12) ∧ Instr.expansion (.cJr 1#5) = some (.jalr 0#5 1#5 0#12)
    ∧ (at64.setReg 2#5 0x8000000000#64).access 0x8000000000#64 4 .load = .error .loadAccessFault :=
  ⟨by decide, .beq 1#12 (by decide), fun h => by cases h with | bne _ h => exact h (by decide), by decide, by decide⟩

theorem witness_CompressedActsAsItsExpansion :
    Instr.expansion (.cLwsp 1#5 63#6) = some (.lw 1#5 2#5 252#12)
    ∧ (∃ t, exec (.lw 1#5 2#5 252#12) at64 = .next t) ∧ (∀ imm, Instr.cLwsp 1#5 63#6 ≠ .cJal imm)
    ∧ (∀ r, Instr.cLwsp 1#5 63#6 ≠ .cJalr r) :=
  ⟨by decide, next_of_goes (by decide), fun _ h => Instr.noConfusion h, fun _ h => Instr.noConfusion h⟩

end Sys2Proof.Tests
end

section
/-! SUPPORT. An invariant of the step, packaged once: a property that each update of the state keeps is kept by every
instruction and every step. -/

namespace Sys2Proof.Machine

open Sys2Proof

/-- The codes of the exceptions fit in four bits (R620). -/
theorem Exc.code_lt (e : Exc) : e.code < 16 := by cases e <;> decide

/-- The codes of the interrupts fit in four bits (R634). -/
theorem interruptOrder_lt {c : Nat} (h : c ∈ interruptOrder) : c < 16 := by
  have all : ∀ c ∈ interruptOrder, c < 16 := by decide
  exact all c h

theorem interruptPending_code_lt {s : State} {c : Nat} {tg : TrapTarget} (h : s.interruptPending = some (c, tg)) :
    c < 16 := by
  have first : ∀ (on d : Bool), (if on then s.firstPending d else none) = some c → c < 16 := by
    intro on d hf
    split at hf
    · exact interruptOrder_lt (List.mem_of_find?_eq_some hf)
    · cases hf
  unfold State.interruptPending at h
  split at h
  · cases h; exact first _ _ ‹_›
  · split at h
    · cases h; exact first _ _ ‹_›
    · cases h

/-- A property of the parameters, the registers, the pc and the CSRs that each update of the state keeps. -/
structure Preserved (P : State → Prop) : Prop where
  frame : ∀ {s t : State}, P s → t.params = s.params → t.regs = s.regs → t.pc = s.pc → t.csr = s.csr → P t
  setReg : ∀ {s : State} (r : Reg) (v : Word), P s → P (s.setReg r v)
  setPc : ∀ {s : State} (v : Word), P s → P (s.setPc v)
  writeCsr : ∀ {s : State} (c : Csr) (v : Word), P s → P (s.writeCsr c v)
  enterTrap : ∀ {s : State} (intr : Bool) {code : Nat} (tval : Word) (tg : TrapTarget), code < 16 → P s →
    P (s.enterTrap intr code tval tg)
  returnM : ∀ {s : State}, P s → P s.returnM
  returnS : ∀ {s : State}, P s → P s.returnS

namespace Preserved

variable {P : State → Prop} (K : Preserved P)
include K

theorem of_trapped {s t : State} (h : Trapped s t) (hs : P s) : P t := by
  obtain ⟨tlb, e, tval, -, rfl⟩ := h
  exact K.enterTrap false tval _ e.code_lt (K.frame hs rfl rfl rfl rfl)

/-- The end of an instruction that completes in `s` with a value for its destination. -/
theorem wrote {s : State} (n : Nat) (r : Reg) (v : Word) (hs : P s) : P ((s.setReg r v).advance n) :=
  K.setPc _ (K.setReg r v hs)

theorem of_exec {i : Instr} {s u : State} (h : exec i s = .next u) (hs : P s) : P u := by
  rcases exec_next h with h | ⟨-, v, rfl⟩ | ⟨-, t, -, -, rfl⟩ | ⟨-, ⟨t, -, -, rfl⟩ | rfl⟩ | ⟨-, va, n, v, -, rfl⟩
    | ⟨-, va, g, v, -, rfl⟩ | ⟨-, va, n, pas, v, v', -, -, -, rfl⟩ | ⟨-, -, rfl⟩ | ⟨-, csr, w, c, v, -, -, rfl⟩ | ⟨-, rfl⟩
    | ⟨-, f, -, rfl⟩ | ⟨-, -, rfl⟩ | ⟨-, -, rfl⟩
  · exact K.of_trapped h hs
  · exact K.wrote _ _ v hs
  · exact K.frame (K.setPc t (K.setReg _ _ hs)) rfl rfl rfl rfl
  · exact K.setPc t hs
  · exact K.setPc _ hs
  · exact K.wrote _ _ v (K.frame hs rfl rfl rfl rfl)
  · exact K.wrote _ _ v (K.frame hs rfl rfl rfl rfl)
  · exact K.setPc _ (K.frame (K.setReg i.dest v' (K.frame (t := (s.afterAccess va n .store).storeAt pas v) hs
      rfl rfl rfl rfl)) rfl rfl rfl rfl)
  · exact K.setPc _ (K.frame (K.setReg i.dest 1#64 hs) rfl rfl rfl rfl)
  · cases w
    · exact K.wrote _ _ _ hs
    · exact K.wrote _ _ _ (K.writeCsr c v hs)
  · exact K.setPc _ hs
  · exact K.setPc _ (K.frame hs rfl rfl rfl rfl)
  · exact K.returnM hs
  · exact K.returnS hs

theorem of_step {s t : State} (h : step s = .next t) (hs : P s) : P t := by
  rcases step_next h with ⟨-, rfl⟩ | ⟨code, tg, hi, rfl⟩ | h | ⟨iw, i, -, -, -, h⟩
  · exact hs
  · exact K.enterTrap true _ tg (interruptPending_code_lt hi) hs
  · exact K.of_trapped h hs
  · rw [fetch_keeps s] at h
    exact K.of_exec h (K.frame hs rfl rfl rfl rfl)

end Preserved

end Sys2Proof.Machine
end

section
/-! SUPPORT. The cells that hold an XLEN-bit value (spec/00_scope.md R7, R11): under the arithmetic of the CSR file and
in the CSR file itself. -/

namespace Sys2Proof.Machine

open Sys2Proof

/-! ### Values -/

theorem truncX_and (x : Xlen) (a b : Word) : truncX x (a &&& b) = truncX x a &&& b := by
  cases x
  · apply BitVec.eq_of_getLsbD_eq
    intro i h64
    by_cases h32 : i < 32 <;> simp [truncX, h64, h32]
  · rfl

theorem truncX_or (x : Xlen) (a b : Word) : truncX x (a ||| b) = truncX x a ||| truncX x b := by
  cases x
  · simp [truncX]
  · rfl

@[simp] theorem fits_truncX (x : Xlen) (v : Word) : Fits x (truncX x v) := truncX_idem x v

@[simp] theorem fits_zero (x : Xlen) : Fits x 0#64 := truncX_zero x

theorem fits_rv64 (v : Word) : Fits .rv64 v := rfl

theorem Fits.and_right {x : Xlen} {a : Word} (h : Fits x a) (b : Word) : Fits x (a &&& b) := by
  unfold Fits; rw [truncX_and, h]

theorem Fits.and_left {x : Xlen} {b : Word} (a : Word) (h : Fits x b) : Fits x (a &&& b) :=
  BitVec.and_comm a b ▸ h.and_right a

theorem Fits.or {x : Xlen} {a b : Word} (ha : Fits x a) (hb : Fits x b) : Fits x (a ||| b) := by
  unfold Fits; rw [truncX_or, ha, hb]

theorem fits_of_lt {x : Xlen} {v : Word} (h : v.toNat < 2 ^ 32) : Fits x v := by
  cases x
  · apply BitVec.eq_of_toNat_eq
    simp only [truncX, BitVec.toNat_setWidth]
    omega
  · exact fits_rv64 v

/-! ### What is written to a CSR -/

theorem Fits.masked {x : Xlen} {old v : Word} (mask : Word) (ho : Fits x old) (hv : Fits x v) :
    Fits x (masked mask old v) := (ho.and_right _).or (hv.and_right _)

theorem Fits.tvecLegal {x : Xlen} {old v : Word} (ho : Fits x old) (hv : Fits x v) : Fits x (tvecLegal old v) := by
  unfold Machine.tvecLegal
  split
  · exact (hv.and_right _).or (ho.and_right _)
  · exact hv

theorem Fits.epcLegal {x : Xlen} {v : Word} (p : Params) (hv : Fits x v) : Fits x (epcLegal p v) := by
  unfold Machine.epcLegal
  split <;> exact hv.and_right _

theorem Fits.satpLegal {x : Xlen} {v : Word} (old : Word) (hv : Fits x v) : Fits x (satpLegal x old v) := by
  cases x
  · exact hv
  · exact fits_rv64 _

/-- The Interrupt bit of a cause is bit XLEN-1 (R87). -/
theorem fits_causeWord (x : Xlen) (intr : Bool) {code : Nat} (h : code < 16) : Fits x (causeWord x intr code) := by
  refine Fits.or ?_ (fits_of_lt ?_)
  · cases x
    · cases intr <;> exact fits_of_lt (by decide)
    · exact fits_rv64 _
  · rw [BitVec.toNat_ofNat]; omega

theorem fits_trapVector (p : Params) {tvec : Word} (intr : Bool) (code : Nat) (h : Fits p.xlen tvec) :
    Fits p.xlen (trapVector p tvec intr code) := by
  unfold trapVector
  split
  · exact fits_truncX ..
  · exact h.and_right _

/-! ### The read views that have no cell -/

theorem fits_bitAt (x : Xlen) {i : Nat} (b : Bool) (h : i < 32) : Fits x (bitAt i b) := by
  refine fits_of_lt ?_
  cases b
  · simp [bitAt]
  · simp only [bitAt, if_true, BitVec.toNat_shiftLeft, BitVec.toNat_ofNat, Nat.shiftLeft_eq]
    have := Nat.pow_lt_pow_right (a := 2) (by omega) h
    omega

theorem fits_mstatus (x : Xlen) (m : Mstatus) : Fits x (m.word x) := by
  have fixed : Fits x (mstatusFixed x) := by cases x <;> rfl
  have mpp : Fits x (Priv.code m.mpp <<< 11) := by cases m.mpp <;> exact fits_of_lt (by decide)
  have bit : ∀ {i : Nat} (b : Bool), i < 32 → Fits x (bitAt i b) := fits_bitAt x
  unfold Mstatus.word
  exact ((((((((fixed.or (bit _ (by decide))).or (bit _ (by decide))).or (bit _ (by decide))).or
    (bit _ (by decide))).or (bit _ (by decide))).or mpp).or (bit _ (by decide))).or (bit _ (by decide))).or
    (bit _ (by decide))

theorem fits_misa (p : Params) : Fits p.xlen (misaWord p) := by
  unfold misaWord
  refine Fits.or ?_ (fits_bitAt _ _ (by decide))
  cases p.xlen <;> rfl

/-! ### The CSR file -/

/-- Every CSR cell holds an XLEN-bit value. -/
structure CsrFile.FitsAt (x : Xlen) (c : CsrFile) : Prop where
  medeleg : Fits x c.medeleg
  mideleg : Fits x c.mideleg
  mie : Fits x c.mie
  mip : Fits x c.mip
  mtvec : Fits x c.mtvec
  stvec : Fits x c.stvec
  mepc : Fits x c.mepc
  sepc : Fits x c.sepc
  mcause : Fits x c.mcause
  scause : Fits x c.scause
  mtval : Fits x c.mtval
  stval : Fits x c.stval
  mscratch : Fits x c.mscratch
  sscratch : Fits x c.sscratch
  satp : Fits x c.satp

/-- The CSRs read as XLEN-bit values exactly where their cells hold such values. -/
theorem readCsr_fits_iff (s : State) :
    (∀ c : Csr, Fits s.params.xlen (s.readCsr c)) ↔ s.csr.FitsAt s.params.xlen := by
  constructor
  · intro h
    exact ⟨h .medeleg, h .mideleg, h .mie, h .mip, h .mtvec, h .stvec, h .mepc, h .sepc, h .mcause, h .scause, h .mtval,
      h .stval, h .mscratch, h .sscratch, h .satp⟩
  · intro h c
    cases c
    case sstatus => exact (fits_mstatus _ _).and_right _
    case mstatus => exact fits_mstatus _ _
    case misa => exact fits_misa _
    case sie => exact h.mie.and_right _
    case sip => exact h.mip.and_right _
    case mvendorid | marchid | mimpid | mhartid => exact fits_zero _
    case stvec => exact h.stvec
    case sscratch => exact h.sscratch
    case sepc => exact h.sepc
    case scause => exact h.scause
    case stval => exact h.stval
    case satp => exact h.satp
    case medeleg => exact h.medeleg
    case mideleg => exact h.mideleg
    case mie => exact h.mie
    case mtvec => exact h.mtvec
    case mscratch => exact h.mscratch
    case mepc => exact h.mepc
    case mcause => exact h.mcause
    case mtval => exact h.mtval
    case mip => exact h.mip

theorem CsrFile.FitsAt.write {p : Params} {c : CsrFile} {v : Word} (h : c.FitsAt p.xlen) (hv : Fits p.xlen v) (r : Csr) :
    (c.write p v r).FitsAt p.xlen := by
  cases r
  case sstatus | mstatus | misa | mvendorid | marchid | mimpid | mhartid => exact { h with }
  case sie | mie => exact { h with mie := h.mie.masked _ hv }
  case sip | mip => exact { h with mip := h.mip.masked _ hv }
  case medeleg => exact { h with medeleg := h.medeleg.masked _ hv }
  case mideleg => exact { h with mideleg := h.mideleg.masked _ hv }
  case stvec => exact { h with stvec := h.stvec.tvecLegal hv }
  case mtvec => exact { h with mtvec := h.mtvec.tvecLegal hv }
  case sepc => exact { h with sepc := hv.epcLegal p }
  case mepc => exact { h with mepc := hv.epcLegal p }
  case satp => exact { h with satp := hv.satpLegal c.satp }
  case scause => exact { h with scause := hv }
  case mcause => exact { h with mcause := hv }
  case stval => exact { h with stval := hv }
  case mtval => exact { h with mtval := hv }
  case sscratch => exact { h with sscratch := hv }
  case mscratch => exact { h with mscratch := hv }

theorem CsrFile.FitsAt.trapCsr {s : State} (h : s.csr.FitsAt s.params.xlen) (hpc : Fits s.params.xlen s.pc) (intr : Bool)
    {code : Nat} (hc : code < 16) (tval : Word) (tg : TrapTarget) :
    (s.trapCsr intr code tval tg).FitsAt s.params.xlen := by
  have epc := hpc.epcLegal s.params
  have cause := fits_causeWord s.params.xlen intr hc
  have val := fits_truncX s.params.xlen tval
  cases tg
  · exact { h with sepc := epc, scause := cause, stval := val }
  · exact { h with mepc := epc, mcause := cause, mtval := val }

theorem CsrFile.FitsAt.tvecOf {s : State} (h : s.csr.FitsAt s.params.xlen) (tg : TrapTarget) :
    Fits s.params.xlen (s.tvecOf tg) := by
  cases tg
  · exact h.stvec
  · exact h.mtvec

/-! ### The state -/

theorem WidthInv.cells {s : State} (h : WidthInv s) : s.csr.FitsAt s.params.xlen := (readCsr_fits_iff s).1 h.csr

/-- The invariant from the cells of the CSR file. -/
theorem WidthInv.ofCells {s : State} (hr : ∀ r : Reg, Fits s.params.xlen (s.reg r)) (hp : Fits s.params.xlen s.pc)
    (hc : s.csr.FitsAt s.params.xlen) : WidthInv s := ⟨hr, hp, (readCsr_fits_iff s).2 hc⟩

theorem WidthInv.setReg {s : State} (r : Reg) (v : Word) (h : WidthInv s) : WidthInv (s.setReg r v) := by
  refine .ofCells (fun q => ?_) ?_ ?_
  · rw [setReg_params, reg_setReg]
    split
    · exact fits_truncX ..
    · exact h.regs q
  · simpa using h.pc
  · simpa using h.cells

theorem WidthInv.enterTrap {s : State} (intr : Bool) {code : Nat} (tval : Word) (tg : TrapTarget) (hc : code < 16)
    (h : WidthInv s) : WidthInv (s.enterTrap intr code tval tg) :=
  .ofCells h.regs (fits_trapVector _ _ _ (h.cells.tvecOf tg)) (h.cells.trapCsr h.pc intr hc tval tg)

theorem widthInv_preserved : Preserved WidthInv where
  frame {s t} h hp hr hpc hc := by
    refine .ofCells (fun r => ?_) ?_ ?_
    · rw [hp, reg_congr hr]; exact h.regs r
    · rw [hp, hpc]; exact h.pc
    · rw [hp, hc]; exact h.cells
  setReg := .setReg
  setPc _ h := .ofCells h.regs (fits_truncX ..) h.cells
  writeCsr c _ h := .ofCells h.regs h.pc (h.cells.write (fits_truncX ..) c)
  enterTrap := .enterTrap
  returnM h := .ofCells h.regs h.cells.mepc { h.cells with }
  returnS h := .ofCells h.regs h.cells.sepc { h.cells with }

/-- Settles O52: each update of the state truncates what it writes or copies a cell that fits. -/
theorem stepKeepsWidths : Obligations.StepKeepsWidths := by
  unfold Obligations.StepKeepsWidths
  exact fun _ _ hs h => widthInv_preserved.of_step h hs

end Sys2Proof.Machine
end

section
/-! SUPPORT. The read-only bits of the CSRs (spec/10_state.md R83, R84), the MODE of `satp` (R90), the parameters
(spec/00_scope.md R9) and the bounds of the TLB (spec/20_memory.md R170 to R174) under every instruction and step. -/

namespace Sys2Proof.Machine

open Sys2Proof

/-! ### The CSR file -/

/-- A masked write of bits inside `legal` keeps the bits outside `legal` 0. -/
theorem masked_readOnly {mask old legal : Word} (v : Word) (hm : mask &&& ~~~legal = 0#64)
    (ho : old &&& ~~~legal = 0#64) : masked mask old v &&& ~~~legal = 0#64 := by
  calc masked mask old v &&& ~~~legal
      = (old &&& ~~~legal &&& ~~~mask) ||| (mask &&& ~~~legal &&& v) := by
        unfold masked; ext i; simp only [BitVec.getElem_and, BitVec.getElem_or]; grind
    _ = 0#64 := by rw [hm, ho]; simp

/-- A delegation mask stays inside the bits of the mask it is cut with. -/
theorem and_readOnly {mask legal : Word} (a : Word) (hm : mask &&& ~~~legal = 0#64) :
    a &&& mask &&& ~~~legal = 0#64 := by rw [BitVec.and_assoc, hm]; simp

/-- A legal MODE of `satp` (R90). -/
def SatpOk (x : Xlen) (v : Word) : Prop := x = .rv64 → v.extractLsb' 60 4 = 0#4 ∨ v.extractLsb' 60 4 = 8#4

theorem satpLegal_rv64_of_legal {old v : Word} (h : v.extractLsb' 60 4 = 0#4 ∨ v.extractLsb' 60 4 = 8#4) :
    satpLegal .rv64 old v = v := if_pos h

theorem satpLegal_rv64_of_not_legal {old v : Word} (h : ¬ (v.extractLsb' 60 4 = 0#4 ∨ v.extractLsb' 60 4 = 8#4)) :
    satpLegal .rv64 old v = old := if_neg h

theorem satpLegal_ok {x : Xlen} {old : Word} (v : Word) (h : SatpOk x old) : SatpOk x (satpLegal x old v) := by
  rintro rfl
  by_cases hv : v.extractLsb' 60 4 = 0#4 ∨ v.extractLsb' 60 4 = 8#4
  · rwa [satpLegal_rv64_of_legal hv]
  · rw [satpLegal_rv64_of_not_legal hv]; exact h rfl

theorem CsrInv.write {s : State} (c : Csr) (v : Word) (h : CsrInv s) : CsrInv (s.writeCsr c v) := by
  cases c
  case medeleg => exact { h with medeleg := masked_readOnly _ (by decide) h.medeleg }
  case mideleg => exact { h with mideleg := masked_readOnly _ (by decide) h.mideleg }
  case mie => exact { h with mie := masked_readOnly _ (by decide) h.mie }
  case sie => exact { h with mie := masked_readOnly _ (and_readOnly _ (by decide)) h.mie }
  case mip => exact { h with mip := masked_readOnly _ (by decide) h.mip }
  case sip => exact { h with mip := masked_readOnly _ (and_readOnly _ (by decide)) h.mip }
  case satp => exact { h with satp := satpLegal_ok _ h.satp }
  all_goals exact { h with }

theorem csrInv_preserved : Preserved CsrInv where
  frame {s t} h hp _ _ hc := by
    obtain ⟨h1, h2, h3, h4, h5⟩ := h
    constructor <;> simpa [hp, hc]
  setReg r v h := by
    obtain ⟨h1, h2, h3, h4, h5⟩ := h
    constructor <;> simpa
  setPc _ h := { h with }
  writeCsr c v h := h.write c v
  enterTrap _ _ _ tg _ h := by cases tg <;> exact { h with }
  returnM h := { h with }
  returnS h := { h with }

/-! ### The parameters -/

theorem params_preserved (p : Params) : Preserved fun s => s.params = p where
  frame h hp _ _ _ := hp.trans h
  setReg r v h := (setReg_params _ r v).trans h
  setPc _ h := h
  writeCsr _ _ h := h
  enterTrap _ _ _ _ _ h := h
  returnM h := h
  returnS h := h

theorem exec_params {i : Instr} {s t : State} (h : exec i s = .next t) : t.params = s.params :=
  (params_preserved s.params).of_exec h rfl

theorem step_params {s t : State} (h : step s = .next t) : t.params = s.params :=
  (params_preserved s.params).of_step h rfl

/-! ### The TLB -/

theorem entries_invalidate (t : Tlb) (f : TlbEntry → Bool) (it : Intent) :
    (t.invalidate f).entries it = (t.entries it).map fun e => if f e then { e with valid := false } else e := by
  cases it <;> rfl

/-- Only a write of `satp` flushes the TLB (R91). -/
theorem afterCsrWrite_cases (t : Tlb) (c : Csr) : t.afterCsrWrite c = t ∨ t.afterCsrWrite c = t.flush := by
  unfold Tlb.afterCsrWrite
  split
  · exact .inr rfl
  · exact .inl rfl

theorem Tlb.Grown.of_eq {p : Params} {old new : Tlb} (h : new = old) : old.Grown p new := h ▸ .refl ..

/-- What an instruction does to the TLB: hits and insertions, or an invalidation. -/
theorem exec_tlb {i : Instr} {s u : State} (h : exec i s = .next u) :
    Tlb.Grown s.params s.tlb u.tlb ∨ ∃ f, u.tlb = s.tlb.invalidate f := by
  rcases exec_next h with h | ⟨-, v, rfl⟩ | ⟨-, t, -, -, rfl⟩ | ⟨-, ⟨t, -, -, rfl⟩ | rfl⟩ | ⟨-, va, n, v, -, rfl⟩
    | ⟨-, va, g, v, -, rfl⟩ | ⟨-, va, n, pas, v, v', -, -, -, rfl⟩ | ⟨-, -, rfl⟩ | ⟨-, csr, w, c, v, -, -, rfl⟩ | ⟨-, rfl⟩
    | ⟨-, f, -, rfl⟩ | ⟨-, -, rfl⟩ | ⟨-, -, rfl⟩
  · obtain ⟨-, -, -, -, -, ht⟩ := h.keeps
    exact .inl ht.grown
  · exact .inl (.of_eq (by simp))
  · exact .inl (.of_eq (by simp))
  · exact .inl (.of_eq rfl)
  · exact .inl (.of_eq rfl)
  · exact .inl (by simpa using accessTlb_grown s va n .load)
  · exact .inl (by simpa using accessTlb_grown s va g.bytes .load)
  · exact .inl (by simpa using accessTlb_grown s va n .store)
  · exact .inl (.of_eq (by simp))
  · cases w
    · exact .inl (.of_eq (by simp))
    · rcases afterCsrWrite_cases s.tlb c with hc | hc
      · exact .inl (.of_eq (by simpa using hc))
      · exact .inr ⟨fun _ => true, (by simp : _ = s.tlb.afterCsrWrite c).trans hc⟩
  · exact .inl (.of_eq rfl)
  · exact .inr ⟨f, rfl⟩
  · exact .inl (.of_eq rfl)
  · exact .inl (.of_eq rfl)

theorem TlbInv.invalidate {s t : State} {f : TlbEntry → Bool} (h : TlbInv s) (hp : t.params = s.params)
    (ht : t.tlb = s.tlb.invalidate f) : TlbInv t := by
  have old : ∀ it, ∀ e ∈ t.tlb.entries it, ∃ o ∈ s.tlb.entries it, e.level = o.level ∧ e.stamp = o.stamp := by
    intro it e he
    rw [ht, entries_invalidate, List.mem_map] at he
    obtain ⟨o, ho, rfl⟩ := he
    exact ⟨o, ho, by split <;> exact ⟨rfl, rfl⟩⟩
  refine ⟨fun it => ?_, fun it e he => ?_, fun it e he => ?_⟩
  · rw [ht, entries_invalidate, List.length_map, hp]; exact h.size it
  · obtain ⟨o, ho, hl, -⟩ := old it e he
    rw [hl, hp]; exact h.level it o ho
  · obtain ⟨o, ho, -, hs⟩ := old it e he
    rw [hs, ht]; exact h.stamp it o ho

theorem TlbInv.exec {i : Instr} {s t : State} (h : exec i s = .next t) (hs : TlbInv s) : TlbInv t := by
  rcases exec_tlb h with hg | ⟨f, hf⟩
  · exact hs.grown (exec_params h) hg
  · exact hs.invalidate (exec_params h) hf

theorem TlbInv.step {s t : State} (h : step s = .next t) (hs : TlbInv s) : TlbInv t := by
  rcases step_next h with ⟨-, rfl⟩ | ⟨code, tg, -, rfl⟩ | h | ⟨iw, i, -, -, -, h⟩
  · exact hs
  · exact hs.grown rfl (.refl ..)
  · obtain ⟨hp, -, -, -, -, ht⟩ := h.keeps
    exact hs.grown hp ht.grown
  · have hp : s.fetch.1.clearTrapped.params = s.params := by rw [fetch_keeps s]; rfl
    exact TlbInv.exec h (hs.grown hp (fetch_grown s))

/-- Settles O54: only CSR writes touch the masked bits and `satp`, and their legalisers keep them; the TLB changes only by
hits, insertions and invalidations. -/
theorem stepKeepsCsrsAndTlb : Obligations.StepKeepsCsrsAndTlb := by
  unfold Obligations.StepKeepsCsrsAndTlb
  exact fun _ _ h => ⟨step_params h, csrInv_preserved.of_step h, TlbInv.step h⟩

end Sys2Proof.Machine
end

section
/-! SUPPORT. The frame of the computational forms, the fences and WFI (spec/00_scope.md R12, spec/10_state.md R40, R44). -/

namespace Sys2Proof.Machine

open Sys2Proof

theorem npc_setReg (s : State) (r : Reg) (v : Word) (n : Nat) : (s.setReg r v).npc n = s.npc n := by simp [State.npc]

theorem idle_dest {i : Instr} (h : i.shape = .idle) : i.dest = 0#5 := by
  cases i <;> first | exact Shape.noConfusion h | rfl

/-- A computational form, a fence or WFI writes its destination and goes on to the next instruction; WFI may trap. -/
theorem exec_wrote {i : Instr} {s t : State} (hs : i.shape = .compute ∨ i.shape = .idle) (h : exec i s = .next t) :
    (Trapped s t ∧ i = .wfi) ∨ ∃ v, t = s.wrote (encode i).ilen i.dest v := by
  rcases hs with hs | hs
  · obtain ⟨v, hv⟩ := exec_compute hs s
    rw [hv] at h; cases h
    exact .inr ⟨v, rfl⟩
  · rcases exec_idle hs s with he | ⟨hw, -, he⟩
    · rw [he] at h; cases h
      exact .inr ⟨0#64, by rw [idle_dest hs]; rfl⟩
    · rw [he] at h; cases h
      exact .inl ⟨trapped_self .., hw⟩

/-- Settles O24: the state is `State.wrote` of the destination. -/
theorem computeFrame : Obligations.ComputeFrame := by
  unfold Obligations.ComputeFrame
  intro i s t hs h
  rcases exec_wrote hs h with h | ⟨v, rfl⟩
  · exact .inl h
  · refine .inr ⟨fun r hr => reg_setReg_other s v hr, rfl, ?_, fun hd => ?_, ?_⟩
    · exact (advance_pc _ _).trans (npc_setReg ..)
    · rw [hd]; rfl
    · simp [State.wrote]

end Sys2Proof.Machine
end

section
/-! SUPPORT. Alignment (spec/10_state.md R45, R85, R86, spec/42_control.md R390): instruction addresses as multiples of the
bytes an instruction starts on, the length of a decoded instruction, and the addresses the hart can go to by itself. -/

namespace Sys2Proof.Machine

open Sys2Proof

/-! ### Instruction addresses -/

/-- The bytes an instruction address is a multiple of: 4, or 2 with the C extension (R45). -/
def ialign (p : Params) : Nat := if p.cEnabled = true then 2 else 4

theorem ialign_dvd_four (p : Params) : ialign p ∣ 4 := by
  unfold ialign
  split <;> decide

/-- A cell whose bits outside `legal` are 0 is left alone by `legal`. -/
theorem and_of_readOnly {a legal : Word} (h : a &&& ~~~legal = 0#64) : a &&& legal = a := by
  calc a &&& legal = (a &&& legal) ||| (a &&& ~~~legal) := by rw [h]; simp
    _ = a := by rw [← BitVec.and_or_distrib_left, BitVec.or_not_self, BitVec.and_allOnes]

/-- A cell is left alone by clearing its low `k` bits exactly where it is a multiple of `2 ^ k`. -/
theorem clearLow_eq_self_iff {k : Nat} (hk : k < 64) (v : Word) :
    v &&& ~~~BitVec.ofNat 64 (2 ^ k - 1) = v ↔ 2 ^ k ∣ v.toNat := by
  have clear : v &&& ~~~BitVec.ofNat 64 (2 ^ k - 1) = v ↔ v &&& BitVec.ofNat 64 (2 ^ k - 1) = 0#64 := by
    constructor <;> intro h
    · rw [← h, BitVec.and_assoc]; simp
    · exact and_of_readOnly (by rwa [BitVec.not_not])
  have small : (2 ^ k - 1) % 2 ^ 64 = 2 ^ k - 1 := by
    have := Nat.pow_lt_pow_right (a := 2) (by omega) hk
    omega
  rw [clear, ← BitVec.toNat_inj, BitVec.toNat_and, BitVec.toNat_ofNat, small, Nat.and_two_pow_sub_one_eq_mod,
    Nat.dvd_iff_mod_eq_zero]
  rfl

theorem dvd_clearLow {k : Nat} (hk : k < 64) (v : Word) : 2 ^ k ∣ (v &&& ~~~BitVec.ofNat 64 (2 ^ k - 1)).toNat :=
  (clearLow_eq_self_iff hk _).1 (by rw [BitVec.and_assoc, BitVec.and_self])

theorem pcAligned_iff (p : Params) (v : Word) : PcAligned p v ↔ ialign p ∣ v.toNat := by
  unfold PcAligned epcLegal ialign
  cases p.cEnabled
  · exact clearLow_eq_self_iff (k := 2) (by decide) v
  · exact clearLow_eq_self_iff (k := 1) (by decide) v

/-- What is written to `xepc` is an instruction address (R86). -/
theorem epcLegal_aligned (p : Params) (v : Word) : PcAligned p (epcLegal p v) := by
  unfold PcAligned epcLegal
  split <;> rw [BitVec.and_assoc, BitVec.and_self]

theorem ialign_dvd_truncX (p : Params) (v : Word) : ialign p ∣ (truncX p.xlen v).toNat ↔ ialign p ∣ v.toNat := by
  cases p.xlen
  · simp only [truncX, BitVec.toNat_setWidth]
    have := (ialign_dvd_four p).trans (by decide : 4 ∣ 2 ^ 32)
    have := (ialign_dvd_four p).trans (by decide : 4 ∣ 2 ^ 64)
    simp only [Nat.dvd_mod_iff, *]
  · rfl

/-- An instruction address, moved by a multiple of the alignment, is one. -/
theorem PcAligned.add {p : Params} {a b : Word} (ha : PcAligned p a) (hb : ialign p ∣ b.toNat) :
    PcAligned p (truncX p.xlen (a + b)) := by
  rw [pcAligned_iff] at ha ⊢
  rw [ialign_dvd_truncX, BitVec.toNat_add, Nat.dvd_mod_iff ((ialign_dvd_four p).trans (by decide))]
  exact Nat.dvd_add ha hb

theorem npc_aligned {s : State} {n : Nat} (h : PcAligned s.params s.pc) (hn : n = 4 ∨ n = 2 ∧ s.params.cEnabled = true) :
    PcAligned s.params (s.npc n) := by
  refine h.add ?_
  rcases hn with rfl | ⟨rfl, hc⟩
  · exact ialign_dvd_four _
  · rw [ialign, if_pos hc]; decide

/-- A target that is even and passes `CheckTarget` is an instruction address (R390). -/
theorem target_aligned {s : State} {t : Word} (h0 : t.getLsbD 0 = false) (hb : s.badTarget t = false) :
    PcAligned s.params (truncX s.params.xlen t) := by
  rw [pcAligned_iff, ialign_dvd_truncX, ialign]
  simp only [BitVec.getLsbD, Nat.testBit_zero, decide_eq_false_iff_not] at h0
  split
  · omega
  · have h1 : t.getLsbD 1 = false := by simpa [State.badTarget, *] using hb
    simp only [BitVec.getLsbD, Nat.testBit_eq_decide_div_mod_eq, decide_eq_false_iff_not] at h1
    omega

theorem pcAligned_even {p : Params} {v : Word} (h : PcAligned p v) : v.getLsbD 0 = false := by
  have two : 2 ∣ v.toNat := by
    refine Nat.dvd_trans ?_ ((pcAligned_iff p v).1 h)
    unfold ialign
    split <;> decide
  simp only [BitVec.getLsbD, Nat.testBit_zero, decide_eq_false_iff_not]
  omega

/-- Every vector is a multiple of 4 (R642). -/
theorem trapVector_aligned (p : Params) (tvec : Word) (intr : Bool) (code : Nat) :
    PcAligned p (trapVector p tvec intr code) := by
  have base : PcAligned p (tvecBase tvec) :=
    (pcAligned_iff ..).2 ((ialign_dvd_four p).trans (dvd_clearLow (k := 2) (by decide) tvec))
  unfold trapVector
  split
  · refine base.add ((ialign_dvd_four p).trans ?_)
    rw [BitVec.toNat_ofNat]; omega
  · exact base

/-! ### The length of a decoded instruction -/

/-- An answer of the decoder that holds no compressed instruction. -/
def DecodesToFull (r : Except Reject Instr) : Prop := ∀ i, r = .ok i → (encode i).ilen = 4

theorem DecodesToFull.ok {i : Instr} (h : (encode i).ilen = 4) : DecodesToFull (.ok i) := by
  intro j hj; cases hj; exact h

theorem DecodesToFull.error {r : Reject} : DecodesToFull (.error r) := fun _ h => nomatch h

/-- One row of a decoding chain. -/
theorem DecodesToFull.ite {c : Prop} [Decidable c] {a b : Except Reject Instr} (ha : DecodesToFull a)
    (hb : DecodesToFull b) : DecodesToFull (if c then a else b) := by
  split
  · exact ha
  · exact hb

theorem decodeOpImm_full (x : Xlen) (w : BitVec 32) : DecodesToFull (decodeOpImm x w) := by
  unfold decodeOpImm
  iterate 6 refine .ite (.ok rfl) ?_
  refine .ite .error ?_
  iterate 3 refine .ite (.ok rfl) ?_
  exact .error

theorem decodeOpImm32_full (w : BitVec 32) : DecodesToFull (decodeOpImm32 w) := by
  unfold decodeOpImm32
  iterate 4 refine .ite (.ok rfl) ?_
  exact .error

theorem decodeOp_full (w : BitVec 32) : DecodesToFull (decodeOp w) := by
  unfold decodeOp
  iterate 18 refine .ite (.ok rfl) ?_
  exact .error

theorem decodeOp32_full (w : BitVec 32) : DecodesToFull (decodeOp32 w) := by
  unfold decodeOp32
  iterate 10 refine .ite (.ok rfl) ?_
  exact .error

theorem decodeBranch_full (w : BitVec 32) : DecodesToFull (decodeBranch w) := by
  unfold decodeBranch
  iterate 6 refine .ite (.ok rfl) ?_
  exact .error

theorem decodeLoad_full (x : Xlen) (w : BitVec 32) : DecodesToFull (decodeLoad x w) := by
  unfold decodeLoad
  iterate 7 refine .ite (.ok rfl) ?_
  exact .error

theorem decodeStore_full (x : Xlen) (w : BitVec 32) : DecodesToFull (decodeStore x w) := by
  unfold decodeStore
  iterate 4 refine .ite (.ok rfl) ?_
  exact .error

theorem decodeAmoW_full (w : BitVec 32) : DecodesToFull (decodeAmoW w) := by
  unfold decodeAmoW
  iterate 11 refine .ite (.ok rfl) ?_
  exact .error

theorem decodeAmoD_full (w : BitVec 32) : DecodesToFull (decodeAmoD w) := by
  unfold decodeAmoD
  iterate 11 refine .ite (.ok rfl) ?_
  exact .error

theorem decodeSystem_full (w : BitVec 32) : DecodesToFull (decodeSystem w) := by
  unfold decodeSystem
  iterate 12 refine .ite (.ok rfl) ?_
  exact .error

theorem decodeMiscMem_full (w : BitVec 32) : DecodesToFull (decodeMiscMem w) := by
  unfold decodeMiscMem
  iterate 2 refine .ite (.ok rfl) ?_
  exact .error

/-- A 32-bit word decodes to an instruction of 4 bytes (R221). -/
theorem decode32_full (x : Xlen) (w : BitVec 32) : DecodesToFull (decode32 x w) := by
  unfold decode32
  exact .ite (.ok rfl) <| .ite (.ok rfl) <| .ite (decodeOpImm_full x w) <| .ite (decodeOp_full w) <|
    .ite (decodeOpImm32_full w) <| .ite (decodeOp32_full w) <| .ite (.ok rfl) <| .ite (.ite (.ok rfl) .error) <|
    .ite (decodeBranch_full w) <| .ite (decodeLoad_full x w) <| .ite (decodeStore_full x w) <|
    .ite (.ite (decodeAmoW_full w) <| .ite (decodeAmoD_full w) .error) <| .ite (decodeSystem_full w) <|
    .ite (decodeMiscMem_full w) .error

theorem ilen_cases (w : InstWord) : w.ilen = 4 ∨ w.ilen = 2 := by
  cases w
  · exact .inr rfl
  · exact .inl rfl

/-- Only with the C extension does the decoder answer an instruction of 2 bytes (R222). -/
theorem decodeInst_ilen {x : Xlen} {c : Bool} {iw : InstWord} {i : Instr} (h : decodeInst x c iw = .ok i) :
    (encode i).ilen = 4 ∨ (encode i).ilen = 2 ∧ c = true := by
  cases c
  · cases iw with
    | half _ => cases h
    | full w => exact .inl (decode32_full x w i h)
  · exact (ilen_cases (encode i)).imp_right fun h2 => ⟨h2, rfl⟩

/-! ### The CSR file -/

/-- The saved pcs are instruction addresses and the vector registers hold a legal MODE. -/
structure CsrFile.Aligned (p : Params) (c : CsrFile) : Prop where
  mepc : PcAligned p c.mepc
  sepc : PcAligned p c.sepc
  mtvec : TvecOk c.mtvec
  stvec : TvecOk c.stvec

/-- MODE 2 and 3 are the ones with bit 1 set (R85). -/
theorem tvecMode_iff (v : Word) : v.extractLsb' 1 1 = 1#1 ↔ 2 ≤ v.toNat % 4 := by
  rw [← BitVec.toNat_inj, BitVec.extractLsb'_toNat, Nat.shiftRight_eq_div_pow, BitVec.toNat_ofNat]
  omega

/-- A write of `xtvec` keeps the MODE legal (R85). -/
theorem tvecLegal_ok {old : Word} (v : Word) (h : TvecOk old) : TvecOk (tvecLegal old v) := by
  unfold TvecOk at *
  unfold tvecLegal
  split
  · simpa using h
  · rename_i hv
    rw [tvecMode_iff] at hv
    simp only [BitVec.getLsbD, Nat.testBit_eq_decide_div_mod_eq, decide_eq_false_iff_not]
    omega

theorem CsrFile.Aligned.write {p : Params} {c : CsrFile} (h : c.Aligned p) (v : Word) (r : Csr) :
    (c.write p v r).Aligned p := by
  cases r
  case mepc => exact { h with mepc := epcLegal_aligned p v }
  case sepc => exact { h with sepc := epcLegal_aligned p v }
  case mtvec => exact { h with mtvec := tvecLegal_ok v h.mtvec }
  case stvec => exact { h with stvec := tvecLegal_ok v h.stvec }
  all_goals exact { h with }

theorem csrAligned_preserved : Preserved fun s => s.csr.Aligned s.params where
  frame h hp _ _ hc := by rw [hp, hc]; exact h
  setReg r v h := by simpa using h
  setPc _ h := h
  writeCsr c v h := h.write _ c
  enterTrap {s} _ _ _ tg _ h := by
    cases tg
    · exact { h with sepc := epcLegal_aligned s.params s.pc }
    · exact { h with mepc := epcLegal_aligned s.params s.pc }
  returnM h := { h with }
  returnS h := { h with }

theorem AlignInv.cells {s : State} (h : AlignInv s) : s.csr.Aligned s.params := ⟨h.mepc, h.sepc, h.mtvec, h.stvec⟩

/-- The invariant from the pc and the cells of the CSR file. -/
theorem AlignInv.ofCells {s : State} (hp : PcAligned s.params s.pc) (hc : s.csr.Aligned s.params) : AlignInv s :=
  ⟨hp, hc.mepc, hc.sepc, hc.mtvec, hc.stvec⟩

/-! ### The pc -/

theorem Trapped.pc_aligned {s t : State} (h : Trapped s t) : PcAligned t.params t.pc := by
  obtain ⟨tlb, e, tval, -, rfl⟩ := h
  exact trapVector_aligned ..

/-- An instruction of a length that the hart decodes leaves an instruction address in the pc. -/
theorem exec_pc_aligned {i : Instr} {s u : State} (h : exec i s = .next u) (hs : AlignInv s)
    (hl : (encode i).ilen = 4 ∨ (encode i).ilen = 2 ∧ s.params.cEnabled = true) : PcAligned s.params u.pc := by
  have seq := npc_aligned hs.pc hl
  have four := npc_aligned (n := 4) hs.pc (.inl rfl)
  have even := pcAligned_even hs.pc
  have hp := exec_params h
  rcases exec_next h with h | ⟨-, v, rfl⟩ | ⟨-, t, ht, hb, rfl⟩ | ⟨-, ⟨t, ht, hb, rfl⟩ | rfl⟩ | ⟨-, va, n, v, -, rfl⟩
    | ⟨-, va, g, v, -, rfl⟩ | ⟨-, va, n, pas, v, v', -, -, -, rfl⟩ | ⟨-, -, rfl⟩ | ⟨-, csr, w, c, v, -, -, rfl⟩ | ⟨-, rfl⟩
    | ⟨-, f, -, rfl⟩ | ⟨-, -, rfl⟩ | ⟨-, -, rfl⟩
  · exact hp ▸ h.pc_aligned
  · simpa [State.npc] using seq
  · simpa using target_aligned (ht even) hb
  · exact target_aligned (ht even) hb
  · simpa using seq
  · simpa [State.npc] using seq
  · simpa [State.npc] using four
  · simpa [State.npc] using seq
  · simpa [State.npc] using four
  · cases w <;> simpa [State.npc] using four
  · simpa using seq
  · simpa [State.npc] using four
  · exact hs.mepc
  · exact hs.sepc

/-- Settles O53: each new pc is the next instruction, a target that was checked, a vector or a saved pc; the length of an
instruction is 4 where the C extension is off. -/
theorem stepKeepsAlignment : Obligations.StepKeepsAlignment := by
  unfold Obligations.StepKeepsAlignment
  intro s t hs h
  refine .ofCells ?_ (csrAligned_preserved.of_step h hs.cells)
  rw [step_params h]
  rcases step_next h with ⟨-, rfl⟩ | ⟨code, tg, -, rfl⟩ | ht | ⟨iw, i, -, hd, -, hx⟩
  · exact hs.pc
  · exact trapVector_aligned ..
  · exact step_params h ▸ ht.pc_aligned
  · rw [fetch_keeps s] at hx
    exact (exec_pc_aligned hx (.ofCells hs.pc hs.cells) (decodeInst_ilen hd) :)

end Sys2Proof.Machine
end

section
/-! SUPPORT. The register forms as operations on integers (spec/00_scope.md R11), and the compressed register forms
(spec/10_state.md R42, spec/47_compressed.md R560 to R579). -/

namespace Sys2Proof.Machine

open Sys2Proof

/-! ### Operations at XLEN bits -/

theorem ofInt_toNat_add {w : Nat} (a b : BitVec w) : a + b = BitVec.ofInt w (a.toNat + b.toNat) := by
  rw [BitVec.ofInt_add]; simp

theorem ofInt_toNat_sub {w : Nat} (a b : BitVec w) : a - b = BitVec.ofInt w (a.toNat - b.toNat) := by
  rw [BitVec.sub_eq_add_neg, Int.sub_eq_add_neg, BitVec.ofInt_add, BitVec.ofInt_neg]; simp

theorem truncI_rv32 (i : Int) : truncI .rv32 i = (BitVec.ofInt 32 i).setWidth 64 := by
  have low : (BitVec.ofInt 64 i).setWidth 32 = BitVec.ofInt 32 i := by
    apply BitVec.eq_of_toNat_eq
    simp only [BitVec.toNat_setWidth, BitVec.toNat_ofInt]
    omega
  exact congrArg (BitVec.setWidth 64) low

theorem uns_rv32 (v : Word) : uns .rv32 v = (v.setWidth 32).toNat := by
  simp only [uns, truncX, BitVec.toNat_setWidth]; omega

theorem sext32I_eq (x : Xlen) (i : Int) : sext32I x i = truncX x ((BitVec.ofInt 32 i).signExtend 64) := rfl

theorem wrote_congr {s : State} {n : Nat} {r : Reg} {v w : Word}
    (h : truncX s.params.xlen v = truncX s.params.xlen w) : s.wrote n r v = s.wrote n r w := by
  unfold State.wrote; rw [setReg_congr h]

section Arithmetic

variable {f : {w : Nat} → BitVec w → BitVec w → BitVec w} {g : Int → Int → Int}
  (hf : ∀ {w : Nat} (a b : BitVec w), f a b = BitVec.ofInt w (g a.toNat b.toNat))

include hf

theorem atXlen_unsigned (x : Xlen) (a b : Word) : atXlen x f a b = truncI x (g (uns x a) (uns x b)) := by
  cases x
  · rw [truncI_rv32, uns_rv32, uns_rv32, ← hf]; rfl
  · exact hf a b

theorem atWord_unsigned (x : Xlen) (a b : Word) : truncX x (atWord f a b) = sext32I x (g (uns32 a) (uns32 b)) := by
  rw [sext32I_eq, uns32, uns32, ← hf]; rfl

/-- A register form whose operation is one on unsigned integers. -/
theorem regOp_unsigned (n : Nat) (rd rs1 rs2 : Reg) (s : State) : regOp n f rd rs1 rs2 s =
    .next (s.wrote n rd (truncI s.params.xlen (g (uns s.params.xlen (s.reg rs1)) (uns s.params.xlen (s.reg rs2))))) := by
  rw [← atXlen_unsigned hf]; rfl

/-- A `*W` register form whose operation is one on unsigned integers. -/
theorem regOpW_unsigned (n : Nat) (rd rs1 rs2 : Reg) (s : State) : regOpW n f rd rs1 rs2 s =
    .next (s.wrote n rd (sext32I s.params.xlen (g (uns32 (s.reg rs1)) (uns32 (s.reg rs2))))) := by
  rw [← atWord_unsigned hf]
  exact congrArg _ (wrote_congr (truncX_truncX ..).symm)

end Arithmetic

/-- A register form whose operation is one on bits. -/
theorem regOp_bitwise {f : {w : Nat} → BitVec w → BitVec w → BitVec w}
    (hf : ∀ a b : Word, (f a b).setWidth 32 = f (a.setWidth 32) (b.setWidth 32)) (n : Nat) (rd rs1 rs2 : Reg) (s : State) :
    regOp n f rd rs1 rs2 s = .next (s.wrote n rd (f (s.reg rs1) (s.reg rs2))) := by
  have low : ∀ (x : Xlen) (a b : Word), truncX x (atXlen x f a b) = truncX x (f a b)
    | .rv32, a, b => by rw [atXlen, ← hf]; exact truncX_truncX .rv32 _
    | .rv64, _, _ => rfl
  exact congrArg _ (wrote_congr (low ..))

/-! ### The compressed register forms -/

/-- A 3-bit field names one of `x8` to `x15` (R42). -/
theorem creg_toNat (r : CReg) : (CReg.reg r).toNat = 8 + r.toNat := by
  have all : ∀ r : CReg, (CReg.reg r).toNat = 8 + r.toNat := by decide
  exact all r

/-- Settles O23: each form is the register operation of its expansion with 2 for the length. -/
theorem compressedRegisterResults : Obligations.CompressedRegisterResults := by
  unfold Obligations.CompressedRegisterResults
  refine ⟨fun s rd rs2 => ⟨rfl, regOp_unsigned ofInt_toNat_add 2 rd rd rs2 s⟩, fun s rd rs2 => ⟨creg_toNat rd, ?_⟩⟩
  exact ⟨regOp_unsigned ofInt_toNat_sub .., regOp_bitwise (fun _ _ => BitVec.setWidth_xor) ..,
    regOp_bitwise (fun _ _ => BitVec.setWidth_or) .., regOp_bitwise (fun _ _ => BitVec.setWidth_and) ..,
    regOpW_unsigned ofInt_toNat_sub .., regOpW_unsigned ofInt_toNat_add ..⟩

end Sys2Proof.Machine
end

section
/-! SUPPORT. The CSR file (spec/10_state.md R55 to R91): what each CSR reads after a write, the views, and what a write
leaves alone. -/

namespace Sys2Proof.Machine

open Sys2Proof

/-! ### `mstatus` as a register (R80, R81) -/

/-- A field of `w` bits at bit `k`, put back in its place. -/
theorem field_inPlace (v : Word) (k w : Nat) :
    (v.extractLsb' k w).setWidth 64 <<< k = v &&& ((BitVec.allOnes w).setWidth 64 <<< k) := by
  apply BitVec.eq_of_getLsbD_eq
  intro i hi
  by_cases h : i < k
  · simp [h]
  · have back : k + (i - k) = i := by omega
    simp [h, hi, back, Bool.and_comm]

/-- A one-bit field of `mstatus`, taken from the value written. -/
theorem bitAt_getLsbD (i : Nat) (v : Word) : bitAt i (v.getLsbD i) = v &&& (1#64 <<< i) := by
  apply BitVec.eq_of_getLsbD_eq
  intro j hj
  by_cases hij : j = i
  · subst hij; cases h : v.getLsbD j <;> simpa [bitAt, hj] using h
  · cases v.getLsbD i <;> simp [bitAt, hj] <;> omega

theorem bitAt_and (i : Nat) (b : Bool) (mask : Word) :
    bitAt i b &&& mask = if mask.getLsbD i = true then bitAt i b else 0#64 := by
  cases b
  · simp [bitAt]
  · rw [show bitAt i true = 1#64 <<< i from rfl, BitVec.and_comm, ← bitAt_getLsbD]
    cases mask.getLsbD i <;> rfl

/-- A written MPP other than 2 names the mode that MPP then holds (R80). -/
theorem mpp_write {v : Word} (h : v.extractLsb' 11 2 ≠ 2#2) (old : Priv) :
    Priv.code ((privOfCode (v.extractLsb' 11 2)).getD old) <<< 11 = v &&& 0x1800#64 := by
  have codes : ∀ c : BitVec 2, c ≠ 2#2 → Priv.code ((privOfCode c).getD old) = c.setWidth 64 := by
    cases old <;> decide
  rw [codes _ h]
  exact field_inPlace v 11 2

/-- A written MPP of 2 is ignored (R80). -/
theorem mpp_write_two {v : Word} (h : v.extractLsb' 11 2 = 2#2) (old : Priv) :
    (privOfCode (v.extractLsb' 11 2)).getD old = old := by rw [h]; rfl

/-- The MPP field as `mstatus` reads it. -/
theorem mstatus_word_mpp (x : Xlen) (m : Mstatus) : m.word x &&& 0x1800#64 = Priv.code m.mpp <<< 11 := by
  have fixed : mstatusFixed x &&& 0x1800#64 = 0#64 := by cases x <;> rfl
  have mpp : (Priv.code m.mpp <<< 11) &&& 0x1800#64 = Priv.code m.mpp <<< 11 := by cases m.mpp <;> rfl
  simp only [Mstatus.word, BitVec.and_or_distrib_right, bitAt_and, fixed, mpp]
  simp

/-- A write of `mstatus` reads back through its mask (R80). -/
theorem mstatus_write_word (x : Xlen) (m : Mstatus) {v : Word} (h : v.extractLsb' 11 2 ≠ 2#2) :
    (m.write v).word x = mstatusFixed x ||| (v &&& 0xE19AA#64) := by
  simp only [Mstatus.word, Mstatus.write, bitAt_getLsbD, mpp_write h, BitVec.or_assoc, ← BitVec.and_or_distrib_left]
  rfl

/-- A write of `mstatus` with MPP = 2 keeps the old MPP (R80). -/
theorem mstatus_write_word_two (x : Xlen) (m : Mstatus) {v : Word} (h : v.extractLsb' 11 2 = 2#2) :
    (m.write v).word x = mstatusFixed x ||| (v &&& 0xE01AA#64) ||| (m.word x &&& 0x1800#64) := by
  have mask : 0xE01AA#64 = 1#64 <<< 1 ||| 1#64 <<< 3 ||| 1#64 <<< 5 ||| 1#64 <<< 7 ||| 1#64 <<< 8 ||| 1#64 <<< 17
    ||| 1#64 <<< 18 ||| 1#64 <<< 19 := rfl
  rw [mstatus_word_mpp, mask]
  simp only [Mstatus.word, Mstatus.write, bitAt_getLsbD, mpp_write_two h, BitVec.and_or_distrib_left]
  ac_rfl

/-- A write through `sstatus` changes the bits of its mask alone (R81). -/
theorem mstatus_writeS_word (x : Xlen) (m : Mstatus) (v : Word) :
    (m.writeS v).word x = (m.word x &&& ~~~0xC0122#64) ||| (v &&& 0xC0122#64) := by
  have fixed : mstatusFixed x &&& ~~~0xC0122#64 = mstatusFixed x := by cases x <;> rfl
  have mpp : (Priv.code m.mpp <<< 11) &&& ~~~0xC0122#64 = Priv.code m.mpp <<< 11 := by cases m.mpp <;> rfl
  have kept : m.word x &&& ~~~0xC0122#64 = mstatusFixed x ||| bitAt 3 m.mie ||| bitAt 7 m.mpie
      ||| (Priv.code m.mpp <<< 11) ||| bitAt 17 m.mprv := by
    simp only [Mstatus.word, BitVec.and_or_distrib_right, bitAt_and, fixed, mpp]
    simp
  have mask : 0xC0122#64 = 1#64 <<< 1 ||| 1#64 <<< 5 ||| 1#64 <<< 8 ||| 1#64 <<< 18 ||| 1#64 <<< 19 := rfl
  rw [kept, mask]
  simp only [Mstatus.word, Mstatus.writeS, bitAt_getLsbD, BitVec.and_or_distrib_left]
  ac_rfl

/-! ### Masks and legalisers -/

/-- A masked write of a CSR whose other bits are 0 (R57). -/
theorem masked_of_readOnly {mask old : Word} (v : Word) (h : old &&& ~~~mask = 0#64) : masked mask old v = v &&& mask := by
  unfold masked; rw [h]; simp

/-- A masked write of no bit. -/
theorem masked_zero (old v : Word) : masked 0#64 old v = old := by
  unfold masked
  rw [BitVec.and_zero, BitVec.or_zero, BitVec.not_zero, BitVec.and_allOnes]

/-- Bit 1 alone of a mask (R84). -/
theorem and_sipMask (a : Word) : a &&& sipMask = if a.getLsbD 1 = true then 2#64 else 0#64 :=
  (bitAt_getLsbD 1 a).symm

theorem tvecLegal_of_legal {v : Word} (old : Word) (h : v.toNat % 4 < 2) : tvecLegal old v = v :=
  if_neg fun hc => by have := (tvecMode_iff v).1 hc; omega

theorem tvecLegal_of_not_legal {v : Word} (old : Word) (h : 2 ≤ v.toNat % 4) :
    tvecLegal old v = (v &&& ~~~3#64) ||| (old &&& 3#64) := if_pos ((tvecMode_iff v).2 h)

theorem epcLegal_eq (p : Params) (v : Word) :
    epcLegal p v = v &&& (if p.cEnabled = true then ~~~1#64 else ~~~3#64) := by
  unfold epcLegal
  split <;> rfl

theorem satpMode_iff (v : Word) (n : BitVec 4) : v.extractLsb' 60 4 = n ↔ v.toNat / 2 ^ 60 = n.toNat := by
  rw [← BitVec.toNat_inj, BitVec.extractLsb'_toNat, Nat.shiftRight_eq_div_pow]
  have := v.isLt
  omega

theorem satpLegal_rv64 (old v : Word) :
    satpLegal .rv64 old v = if v.toNat / 2 ^ 60 = 0 ∨ v.toNat / 2 ^ 60 = 8 then v else old := by
  simp only [satpLegal, satpMode_iff]
  rfl

/-- A write of an XLEN-bit value stores it as it is. -/
theorem writeCsr_of_fits {s : State} {v : Word} (h : Fits s.params.xlen v) (c : Csr) :
    s.writeCsr c v = { s with csr := s.csr.write s.params v c, tlb := s.tlb.afterCsrWrite c } := by
  unfold State.writeCsr; rw [h]

/-- Settles O40: each CSR is read back through the mask or the legaliser of its write. -/
theorem csrWriteThenRead : Obligations.CsrWriteThenRead := by
  unfold Obligations.CsrWriteThenRead
  intro s v inv hv
  simp only [writeCsr_of_fits hv]
  refine ⟨mstatus_write_word _ _, mstatus_write_word_two _ _, masked_of_readOnly v inv.medeleg,
    masked_of_readOnly v inv.mideleg, masked_of_readOnly v inv.mie, masked_of_readOnly v inv.mip,
    fun h => ⟨tvecLegal_of_legal _ h, tvecLegal_of_legal _ h⟩,
    fun h => ⟨tvecLegal_of_not_legal _ h, tvecLegal_of_not_legal _ h⟩, epcLegal_eq _ v, epcLegal_eq _ v,
    rfl, rfl, rfl, rfl, rfl, rfl, fun hx => ?_, fun hx => ?_⟩
  · simp only [State.readCsr, CsrFile.write, hx]; rfl
  · simp only [State.readCsr, CsrFile.write, hx]; exact satpLegal_rv64 ..

/-- Settles O41: the views are the masks of their machine registers, and the fixed registers have no cell. -/
theorem csrViews : Obligations.CsrViews := by
  unfold Obligations.CsrViews
  intro s v inv hv
  simp only [writeCsr_of_fits hv]
  have deleg : s.csr.mideleg &&& midelegMask = s.csr.mideleg := and_of_readOnly inv.mideleg
  refine ⟨?_, rfl, rfl, mstatus_writeS_word .., ?_, ?_, ?_, rfl, rfl, rfl, rfl, rfl⟩
  · rfl
  · simp only [CsrFile.write, deleg]; rfl
  · simp only [CsrFile.write, and_sipMask]
    split
    · rfl
    · exact masked_zero ..
  · simp only [State.readCsr, misaWord]
    cases s.params.xlen <;> cases s.params.cEnabled <;> rfl

/-! ### What a write leaves alone -/

/-! Each cell under a write of a CSR with another storage. -/

section Frame

variable {c : Csr} (f : CsrFile) (p : Params) (v : Word)

theorem CsrFile.write_mstatus_of_ne (h : c.home ≠ .mstatus) : (f.write p v c).mstatus = f.mstatus := by
  cases c <;> first | rfl | exact absurd rfl h
theorem CsrFile.write_medeleg_of_ne (h : c.home ≠ .medeleg) : (f.write p v c).medeleg = f.medeleg := by
  cases c <;> first | rfl | exact absurd rfl h
theorem CsrFile.write_mideleg_of_ne (h : c.home ≠ .mideleg) : (f.write p v c).mideleg = f.mideleg := by
  cases c <;> first | rfl | exact absurd rfl h
theorem CsrFile.write_mie_of_ne (h : c.home ≠ .mie) : (f.write p v c).mie = f.mie := by
  cases c <;> first | rfl | exact absurd rfl h
theorem CsrFile.write_mip_of_ne (h : c.home ≠ .mip) : (f.write p v c).mip = f.mip := by
  cases c <;> first | rfl | exact absurd rfl h
theorem CsrFile.write_mtvec_of_ne (h : c.home ≠ .mtvec) : (f.write p v c).mtvec = f.mtvec := by
  cases c <;> first | rfl | exact absurd rfl h
theorem CsrFile.write_stvec_of_ne (h : c.home ≠ .stvec) : (f.write p v c).stvec = f.stvec := by
  cases c <;> first | rfl | exact absurd rfl h
theorem CsrFile.write_mepc_of_ne (h : c.home ≠ .mepc) : (f.write p v c).mepc = f.mepc := by
  cases c <;> first | rfl | exact absurd rfl h
theorem CsrFile.write_sepc_of_ne (h : c.home ≠ .sepc) : (f.write p v c).sepc = f.sepc := by
  cases c <;> first | rfl | exact absurd rfl h
theorem CsrFile.write_mcause_of_ne (h : c.home ≠ .mcause) : (f.write p v c).mcause = f.mcause := by
  cases c <;> first | rfl | exact absurd rfl h
theorem CsrFile.write_scause_of_ne (h : c.home ≠ .scause) : (f.write p v c).scause = f.scause := by
  cases c <;> first | rfl | exact absurd rfl h
theorem CsrFile.write_mtval_of_ne (h : c.home ≠ .mtval) : (f.write p v c).mtval = f.mtval := by
  cases c <;> first | rfl | exact absurd rfl h
theorem CsrFile.write_stval_of_ne (h : c.home ≠ .stval) : (f.write p v c).stval = f.stval := by
  cases c <;> first | rfl | exact absurd rfl h
theorem CsrFile.write_mscratch_of_ne (h : c.home ≠ .mscratch) : (f.write p v c).mscratch = f.mscratch := by
  cases c <;> first | rfl | exact absurd rfl h
theorem CsrFile.write_sscratch_of_ne (h : c.home ≠ .sscratch) : (f.write p v c).sscratch = f.sscratch := by
  cases c <;> first | rfl | exact absurd rfl h
theorem CsrFile.write_satp_of_ne (h : c.home ≠ .satp) : (f.write p v c).satp = f.satp := by
  cases c <;> first | rfl | exact absurd rfl h

end Frame

theorem eq_mideleg_of_home {c : Csr} (h : c.home = .mideleg) : c = .mideleg := by
  cases c <;> first | rfl | cases h

/-- A CSR with another storage reads as before; `sie` and `sip` are also masked by `mideleg` (R81, R84). -/
theorem readCsr_writeCsr_of_home_ne (s : State) {c d : Csr} (v : Word) (h : c.home ≠ d.home)
    (hd : ¬ (c = .mideleg ∧ (d = .sie ∨ d = .sip))) : (s.writeCsr c v).readCsr d = s.readCsr d := by
  have hdeleg : d = .sie ∨ d = .sip → (s.writeCsr c v).csr.mideleg = s.csr.mideleg := fun hv =>
    CsrFile.write_mideleg_of_ne _ _ _ fun hc => hd ⟨eq_mideleg_of_home hc, hv⟩
  cases d
  case sstatus => exact congrArg (fun m : Mstatus => m.word _ &&& _) (CsrFile.write_mstatus_of_ne _ _ _ h)
  case mstatus => exact congrArg (Mstatus.word _) (CsrFile.write_mstatus_of_ne _ _ _ h)
  case sie => exact congrArg₂ (· &&& ·) (CsrFile.write_mie_of_ne _ _ _ h) (hdeleg (.inl rfl))
  case sip => exact congrArg₂ (· &&& ·) (CsrFile.write_mip_of_ne _ _ _ h) (hdeleg (.inr rfl))
  case misa | mvendorid | marchid | mimpid | mhartid => rfl
  case medeleg => exact CsrFile.write_medeleg_of_ne _ _ _ h
  case mideleg => exact CsrFile.write_mideleg_of_ne _ _ _ h
  case mie => exact CsrFile.write_mie_of_ne _ _ _ h
  case mip => exact CsrFile.write_mip_of_ne _ _ _ h
  case mtvec => exact CsrFile.write_mtvec_of_ne _ _ _ h
  case stvec => exact CsrFile.write_stvec_of_ne _ _ _ h
  case mepc => exact CsrFile.write_mepc_of_ne _ _ _ h
  case sepc => exact CsrFile.write_sepc_of_ne _ _ _ h
  case mcause => exact CsrFile.write_mcause_of_ne _ _ _ h
  case scause => exact CsrFile.write_scause_of_ne _ _ _ h
  case mtval => exact CsrFile.write_mtval_of_ne _ _ _ h
  case stval => exact CsrFile.write_stval_of_ne _ _ _ h
  case mscratch => exact CsrFile.write_mscratch_of_ne _ _ _ h
  case sscratch => exact CsrFile.write_sscratch_of_ne _ _ _ h
  case satp => exact CsrFile.write_satp_of_ne _ _ _ h

@[simp] theorem npc_writeCsr (s : State) (c : Csr) (v : Word) (n : Nat) : (s.writeCsr c v).npc n = s.npc n := rfl

/-- What a CSR instruction does: a trap, or the destination written after at most one write of the CSR it names. -/
theorem csr_next {i : Instr} {s u : State} (hs : i.shape = .csr) (h : exec i s = .next u) :
    Trapped s u ∨ ∃ csr c old, CsrForm i csr ∧ (csr.toNat, c) ∈ csrTable
      ∧ ((∃ v, u = ((s.writeCsr c v).setReg i.dest old).advance 4) ∨ u = (s.setReg i.dest old).advance 4) := by
  obtain ⟨csr, w, new, hf, he⟩ := exec_csr hs s
  rw [he] at h
  rcases csrOp_next h with h | ⟨c, hc, rfl⟩
  · exact .inl h
  · obtain ⟨row, -, -⟩ := Laws.csrCheck_iff.1 hc
    refine .inr ⟨csr, c, s.readCsr c, hf, row, ?_⟩
    cases w
    · exact .inr rfl
    · exact .inl ⟨_, rfl⟩

/-- Settles O42: a CSR instruction is at most one CSR write and one register write, and a CSR write changes one cell. -/
theorem csrFrame : Obligations.CsrFrame := by
  unfold Obligations.CsrFrame
  refine ⟨fun i s t hs h => ?_, fun s c d v => readCsr_writeCsr_of_home_ne s v, fun s c v hc => if_neg hc⟩
  rcases csr_next hs h with h | ⟨csr, c, old, hf, hrow, ⟨v, rfl⟩ | rfl⟩
  · exact .inl h
  · refine .inr ⟨fun r hr => reg_setReg_other _ old hr, ?_, ?_, ?_, ?_, ?_, fun a => ?_,
      .inr ⟨csr, c, v, hf, hrow, ?_, ?_⟩⟩ <;> simp [npc_setReg]
  · refine .inr ⟨fun r hr => reg_setReg_other _ old hr, ?_, ?_, ?_, ?_, ?_, fun a => ?_, .inl ⟨?_, ?_⟩⟩ <;>
      simp [npc_setReg]

end Sys2Proof.Machine
end

section
/-! SUPPORT. The halt request (spec/10_state.md R50, spec/70_reset_and_hazards.md R697) and the state after reset (R100). -/

namespace Sys2Proof.Machine

open Sys2Proof

/-- Settles O59: of everything an instruction can do, only the halt check of a jump and a trap entry write the request. -/
theorem haltOnlyByJumpOrTrap : Obligations.HaltOnlyByJumpOrTrap := by
  unfold Obligations.HaltOnlyByJumpOrTrap
  intro i s t hs h ht
  rcases exec_next h with h | ⟨-, v, rfl⟩ | ⟨hj, t, -, -, rfl⟩ | ⟨-, ⟨t, -, -, rfl⟩ | rfl⟩ | ⟨-, va, n, v, -, rfl⟩
    | ⟨-, va, g, v, -, rfl⟩ | ⟨-, va, n, pas, v, v', -, -, -, rfl⟩ | ⟨-, -, rfl⟩ | ⟨-, csr, w, c, v, -, -, rfl⟩ | ⟨-, rfl⟩
    | ⟨-, f, -, rfl⟩ | ⟨-, -, rfl⟩ | ⟨-, -, rfl⟩
  case inl => exact .inr h
  case inr.inr.inl =>
    simp only [jumpHalt_haltRequested, setPc_haltRequested, setReg_haltRequested, hs, Bool.false_or, Bool.and_eq_true,
      decide_eq_true_eq] at ht
    exact .inl ⟨hj, ht⟩
  case inr.inr.inr.inr.inr.inr.inr.inr.inl => cases w <;> simp [hs] at ht
  all_goals simp [hs] at ht

/-! ### Reset -/

theorem reset_reg (p : Params) (r : Reg) : (State.resetWith p).reg r = 0#64 := by
  unfold State.reg
  split
  · rfl
  · exact Vector.getElem_replicate _

theorem reset_cells_fit (p : Params) : (State.resetWith p).csr.FitsAt p.xlen := by
  constructor <;> exact fits_zero _

theorem reset_widthInv (p : Params) : WidthInv (State.resetWith p) :=
  .ofCells (fun r => reset_reg p r ▸ fits_zero _) (fits_zero _) (reset_cells_fit p)

theorem pcAligned_zero (p : Params) : PcAligned p 0#64 := (pcAligned_iff ..).2 (Nat.dvd_zero _)

theorem reset_alignInv (p : Params) : AlignInv (State.resetWith p) where
  pc := pcAligned_zero p
  mepc := pcAligned_zero p
  sepc := pcAligned_zero p
  mtvec := BitVec.getLsbD_zero
  stvec := BitVec.getLsbD_zero

theorem reset_csrInv (p : Params) : CsrInv (State.resetWith p) where
  medeleg := BitVec.zero_and
  mideleg := BitVec.zero_and
  mie := BitVec.zero_and
  mip := BitVec.zero_and
  satp _ := .inl (by decide : BitVec.extractLsb' 60 4 0#64 = 0#4)

theorem reset_entries (p : Params) (it : Intent) : (State.resetWith p).tlb.entries it = [] := by cases it <;> rfl

theorem reset_tlbInv (p : Params) : TlbInv (State.resetWith p) where
  size it := by rw [reset_entries]; exact Nat.zero_le _
  level it e he := by rw [reset_entries] at he; cases he
  stamp it e he := by rw [reset_entries] at he; cases he

theorem reset_memInv (p : Params) : MemInv (State.resetWith p) where
  wf := ⟨.nil, fun _ h => nomatch h⟩
  range := fun _ h => nomatch h

/-- Settles O55: the values of the creation table, and each invariant of the reset state of any parameters. -/
theorem resetState : Obligations.ResetState := by
  unfold Obligations.ResetState
  have zero : ∀ c ∈ [Csr.medeleg, .mideleg, .mie, .mip, .mtvec, .stvec, .mepc, .sepc, .mcause, .scause, .mtval, .stval,
      .mscratch, .sscratch, .satp, .mvendorid, .marchid, .mimpid, .mhartid], State.reset.readCsr c = 0#64 := by
    simp only [List.forall_mem_cons, List.not_mem_nil, false_imp_iff, implies_true, and_true]
    exact ⟨rfl, rfl, rfl, rfl, rfl, rfl, rfl, rfl, rfl, rfl, rfl, rfl, rfl, rfl, rfl, rfl, rfl, rfl, rfl⟩
  exact ⟨reset_reg _, rfl, rfl, rfl, reset_entries _, fun _ => rfl, fun x => by cases x <;> rfl,
    fun x => by cases x <;> rfl, zero, fun _ => rfl, Nat.le_add_left 1 _, reset_widthInv _, reset_alignInv _,
    reset_csrInv _, reset_tlbInv _, reset_memInv _⟩

end Sys2Proof.Machine
end

section
/-! SUPPORT. The physical addresses of an access (spec/20_memory.md R142, R143, R160, R168), and what an instruction and
a step do to memory (R140). -/

namespace Sys2Proof.Machine

open Sys2Proof

/-! ### Addresses -/

/-- The addresses that exist (R143). -/
theorem accessible_iff (p : Params) (pa : Nat) : accessible p pa = true ↔
    pa < 2 ^ p.paBits ∧ ∀ r ∈ p.guarded, ¬ (r.1 ≤ pa ∧ pa < r.1 + r.2) := by
  simp [accessible, guarded]

theorem mem_addrRange {pa n a : Nat} : a ∈ addrRange pa n ↔ ∃ k, k < n ∧ a = pa + k := by
  simp [addrRange, eq_comm]

theorem addrRange_nodup (pa n : Nat) : (addrRange pa n).Nodup :=
  List.Nodup.map (fun _ _ h => Nat.add_left_cancel h) List.nodup_range

/-- Every byte of a range is accessible, as the hardware checks it and byte by byte (R143). -/
theorem all_accessible_iff {p : Params} {pa n : Nat} :
    (addrRange pa n).all (accessible p) = true ↔ ∀ k, k < n → accessible p (pa + k) = true := by
  simp [addrRange]

/-! ### A translation that succeeds -/

/-- A composed address keeps the offset in the page (R168). -/
theorem compose_offset (x : Xlen) (ppn : BitVec 44) (i : Nat) (va : Word) :
    compose x ppn i va % 4096 = va.toNat % 4096 := by
  have page : 4096 ∣ 2 ^ (12 + vpnBits x * i) := ⟨2 ^ (vpnBits x * i), by rw [Nat.pow_add]⟩
  have top := page.mul_left (ppn.toNat / 2 ^ (vpnBits x * i))
  unfold compose
  rw [Nat.add_mod, Nat.mod_eq_zero_of_dvd top, Nat.zero_add, Nat.mod_mod, Nat.mod_mod_of_dvd _ page]

/-- A translation succeeds by a permitted hit, or by a miss whose walk ends in a leaf that passes its checks (R163). -/
theorem translate_ok {s : State} {t t' : Tlb} {va : Word} {it : Intent} {pa : Nat}
    (h : s.translate t va it = (t', .ok pa)) :
    canonical s.params.xlen va = true ∧
    ((∃ slot e, newestHit (TlbEntry.hits s.params.xlen s.csr.satp va) (t.entries it) = some (slot, e)
        ∧ s.permitted it e.r e.w e.x e.u = true ∧ t' = t.touch it slot e ∧ pa = compose s.params.xlen e.ppn e.level va)
      ∨ ∃ pte i, newestHit (TlbEntry.hits s.params.xlen s.csr.satp va) (t.entries it) = none
        ∧ s.leafOk it pte i = true ∧ t' = t.insert s.params s.csr.satp it va pte i
        ∧ pa = compose s.params.xlen (ptePpn s.params.xlen pte) i va) := by
  unfold State.translate at h
  split at h
  · cases h
  · rename_i hc
    refine ⟨by simpa using hc, ?_⟩
    split at h
    · rename_i slot e hit
      split at h <;> cases h
      exact .inl ⟨slot, e, hit, ‹_›, rfl, rfl⟩
    · rename_i miss
      split at h
      · cases h
      · rename_i pte i hw
        split at h <;> cases h
        exact .inr ⟨pte, i, miss, ‹_›, rfl, rfl⟩

theorem translate_offset {s : State} {t t' : Tlb} {va : Word} {it : Intent} {pa : Nat}
    (h : s.translate t va it = (t', .ok pa)) : pa % 4096 = va.toNat % 4096 := by
  obtain ⟨-, ⟨slot, e, -, -, -, rfl⟩ | ⟨pte, i, -, -, -, rfl⟩⟩ := translate_ok h <;> exact compose_offset ..

/-! ### An access that is allowed -/

/-- One run of an allowed access: the addresses from the translation of its first byte on, each accessible (R160). -/
theorem accessRun_ok {s : State} {t t' : Tlb} {va : Word} {n : Nat} {it : Intent} {pas : List Nat}
    (h : s.accessRun t va n it = (t', .ok pas)) :
    ∃ base, base % 4096 = va.toNat % 4096 ∧ pas = addrRange base n ∧ ∀ a ∈ pas, accessible s.params a = true := by
  unfold State.accessRun at h
  split at h
  · cases h
  · rename_i t1 base ht
    split at h <;> cases h
    exact ⟨base, translate_offset ht, rfl, List.all_eq_true.1 ‹_›⟩

/-- The page after that of `va` starts at offset 0, at XLEN bits too. -/
theorem truncX_next_page (x : Xlen) (va : Word) :
    (truncX x (va + BitVec.ofNat 64 (4096 - va.toNat % 4096))).toNat % 4096 = 0 := by
  have hv := va.isLt
  cases x <;> simp only [truncX, BitVec.toNat_setWidth, BitVec.toNat_add, BitVec.toNat_ofNat] <;> omega

/-- An allowed access is one range of accessible addresses, or two: the end of one page and the start of another
(R160). -/
theorem access_ok {s : State} {va : Word} {n : Nat} {it : Intent} {pas : List Nat} (h : s.access va n it = .ok pas) :
    (∀ a ∈ pas, accessible s.params a = true)
    ∧ ((∃ base, pas = addrRange base n)
      ∨ ∃ n0 base0 base1, n0 = 4096 - va.toNat % 4096 ∧ n0 < n ∧ base0 % 4096 = va.toNat % 4096 ∧ base1 % 4096 = 0
        ∧ pas = addrRange base0 n0 ++ addrRange base1 (n - n0)) := by
  rw [access_ok_iff] at h
  unfold State.accessRuns at h
  split at h
  · dsimp only at h
    split at h
    · obtain ⟨base, -, hp, ha⟩ := accessRun_ok (Prod.ext rfl h)
      exact ⟨ha, .inl ⟨base, hp⟩⟩
    · split at h
      · cases h
      · rename_i hn t1 pas0 h0
        split at h <;> cases h
        rename_i t2 pas1 h1
        obtain ⟨base0, hb0, rfl, ha0⟩ := accessRun_ok h0
        obtain ⟨base1, hb1, rfl, ha1⟩ := accessRun_ok h1
        rw [truncX_next_page] at hb1
        exact ⟨fun a ha => (List.mem_append.1 ha).elim (ha0 a) (ha1 a),
          .inr ⟨_, base0, base1, rfl, by omega, hb0, hb1, rfl⟩⟩
  · split at h <;> cases h
    exact ⟨List.all_eq_true.1 ‹_›, .inl ⟨_, rfl⟩⟩

theorem access_accessible {s : State} {va : Word} {n : Nat} {it : Intent} {pas : List Nat}
    (h : s.access va n it = .ok pas) : ∀ a ∈ pas, accessible s.params a = true := (access_ok h).1

theorem access_length {s : State} {va : Word} {n : Nat} {it : Intent} {pas : List Nat}
    (h : s.access va n it = .ok pas) : pas.length = n := by
  obtain ⟨-, ⟨base, rfl⟩ | ⟨n0, base0, base1, -, hlt, -, -, rfl⟩⟩ := access_ok h
  · exact addrRange_length ..
  · rw [List.length_append, addrRange_length, addrRange_length]; omega

/-- The addresses at the end of a page and those at the start of a page differ in their offset. -/
theorem access_nodup {s : State} {va : Word} {n : Nat} {it : Intent} {pas : List Nat} (hn : n ≤ 8)
    (h : s.access va n it = .ok pas) : pas.Nodup := by
  obtain ⟨-, ⟨base, rfl⟩ | ⟨n0, base0, base1, h0, hlt, hb0, hb1, rfl⟩⟩ := access_ok h
  · exact addrRange_nodup ..
  · refine List.nodup_append.2 ⟨addrRange_nodup .., addrRange_nodup .., fun a ha b hb => ?_⟩
    obtain ⟨j, hj, rfl⟩ := mem_addrRange.1 ha
    obtain ⟨k, hk, rfl⟩ := mem_addrRange.1 hb
    omega

/-- Settles O46: an access is one range, or the end of one page and the start of another. -/
theorem accessGivesDistinctAddresses : Obligations.AccessGivesDistinctAddresses := by
  unfold Obligations.AccessGivesDistinctAddresses
  exact fun _ _ _ _ _ hn h => ⟨access_length h, access_nodup hn h, access_accessible h⟩

/-! ### What an instruction does to memory -/

/-- An instruction leaves memory alone, or stores one value at the addresses of its data access. -/
theorem exec_mem {i : Instr} {s u : State} (h : exec i s = .next u) :
    u.mem = s.mem ∨ ∃ va n pas v, i.dataAccess s = some (va, n, .store) ∧ s.access va n .store = .ok pas
      ∧ u.mem = s.mem.writeLE pas v := by
  rcases exec_next h with h | ⟨-, v, rfl⟩ | ⟨-, t, -, -, rfl⟩ | ⟨-, ⟨t, -, -, rfl⟩ | rfl⟩ | ⟨-, va, n, v, -, rfl⟩
    | ⟨-, va, g, v, -, rfl⟩ | ⟨-, va, n, pas, v, v', -, hd, ha, rfl⟩ | ⟨-, -, rfl⟩ | ⟨-, csr, w, c, v, -, -, rfl⟩
    | ⟨-, rfl⟩ | ⟨-, f, -, rfl⟩ | ⟨-, -, rfl⟩ | ⟨-, -, rfl⟩
  case inl => obtain ⟨-, -, hm, -⟩ := h.keeps; exact .inl hm
  case inr.inr.inr.inr.inr.inr.inl => exact .inr ⟨va, n, pas, v, hd, ha, by simp⟩
  case inr.inr.inr.inr.inr.inr.inr.inr.inl => cases w <;> exact .inl (by simp)
  all_goals exact .inl (by simp)

theorem MemInv.frame {s t : State} (h : MemInv s) (hp : t.params = s.params) (hm : t.mem = s.mem) : MemInv t :=
  ⟨hm ▸ h.wf, by rw [hp, hm]; exact h.range⟩

/-- A store at accessible addresses keeps memory canonical and inside physical memory. -/
theorem MemInv.writeLE {s t : State} {pas : List Nat} {v : Word} (h : MemInv s) (hp : t.params = s.params)
    (ha : ∀ a ∈ pas, accessible s.params a = true) (hm : t.mem = s.mem.writeLE pas v) : MemInv t := by
  refine ⟨hm ▸ Memory.wf_writeLE pas v h.wf, fun c hc => ?_⟩
  rw [hp]
  rcases Memory.mem_writeLE (hm ▸ hc) with hc | hc
  · exact ((accessible_iff ..).1 (ha _ hc)).1
  · exact h.range c hc

theorem MemInv.exec {i : Instr} {s t : State} (h : MemInv s) (he : exec i s = .next t) : MemInv t := by
  rcases exec_mem he with hm | ⟨va, n, pas, v, -, ha, hm⟩
  · exact h.frame (exec_params he) hm
  · exact h.writeLE (exec_params he) (access_accessible ha) hm

/-- Settles O51: memory changes only by the store of an instruction, whose addresses were checked. -/
theorem stepKeepsMemory : Obligations.StepKeepsMemory := by
  unfold Obligations.StepKeepsMemory
  intro s t hs h
  rcases step_next h with ⟨-, rfl⟩ | ⟨code, tg, -, rfl⟩ | h | ⟨iw, i, -, -, -, h⟩
  · exact hs
  · exact hs.frame rfl rfl
  · obtain ⟨hp, -, hm, -⟩ := h.keeps
    exact hs.frame hp hm
  · have hf : MemInv s.fetch.1.clearTrapped := by rw [fetch_keeps s]; exact hs.frame rfl rfl
    exact hf.exec h

/-! ### The frame of the memory instructions -/

/-- LR and SC have no compressed form. -/
theorem lr_sc_ilen {i : Instr} (h : i.shape = .lr ∨ i.shape = .sc) : (encode i).ilen = 4 := by
  cases i <;> first | rfl | exact absurd h (by simp [Instr.shape])

theorem clearResv_setReg (s : State) (r : Reg) (v : Word) : (s.setReg r v).clearResv = s.clearResv.setReg r v := by
  unfold State.setReg; split <;> rfl

/-- The end of a memory instruction, whatever it did before to the TLB, memory and the reservation. -/
theorem wrote_frame {s u : State} (n : Nat) (rd : Reg) (v : Word)
    (hu : u = { s with tlb := u.tlb, mem := u.mem, resv := u.resv }) :
    (∀ r : Reg, r ≠ rd → (u.wrote n rd v).reg r = s.reg r) ∧ (u.wrote n rd v).pc = s.npc n
      ∧ (u.wrote n rd v).csr = s.csr ∧ (u.wrote n rd v).priv = s.priv
      ∧ (u.wrote n rd v).haltRequested = s.haltRequested ∧ (u.wrote n rd v).params = s.params := by
  rw [hu]
  exact ⟨fun r hr => reg_setReg_other _ v hr, (advance_pc ..).trans (npc_setReg ..), setReg_csr .., setReg_priv ..,
    setReg_haltRequested .., setReg_params ..⟩

/-- Settles O32: a memory instruction that completes writes its destination in a state that differs in the TLB, memory
and the reservation alone; memory changes only at the addresses of a data access. -/
theorem memoryFrame : Obligations.MemoryFrame := by
  unfold Obligations.MemoryFrame
  refine ⟨fun i s t hs h => ?_, fun i s t hw h a ha => ?_⟩
  · rcases exec_next h with h | ⟨hc, -⟩ | ⟨hc, -⟩ | ⟨hc, -⟩ | ⟨-, va, n, v, -, rfl⟩ | ⟨hl, va, g, v, -, rfl⟩
      | ⟨-, va, n, pas, v, v', -, -, -, rfl⟩ | ⟨hl, -, rfl⟩ | ⟨hc, -⟩ | ⟨hc, -⟩ | ⟨hc, -⟩ | ⟨rfl, -⟩ | ⟨rfl, -⟩
    case inl => exact .inl h
    case inr.inr.inr.inr.inl => exact .inr (wrote_frame _ _ v rfl)
    case inr.inr.inr.inr.inr.inl => rw [lr_sc_ilen (.inl hl)]; exact .inr (wrote_frame 4 _ v rfl)
    case inr.inr.inr.inr.inr.inr.inl => rw [clearResv_setReg]; exact .inr (wrote_frame _ _ v' rfl)
    case inr.inr.inr.inr.inr.inr.inr.inl =>
      rw [clearResv_setReg, lr_sc_ilen (.inr hl)]; exact .inr (wrote_frame 4 _ _ rfl)
    case inr.inr.inr.inr.inr.inr.inr.inr.inr.inr.inr.inl => exact absurd hs (by decide)
    case inr.inr.inr.inr.inr.inr.inr.inr.inr.inr.inr.inr => exact absurd hs (by decide)
    all_goals simp [hc] at hs
  · rcases exec_mem h with hm | ⟨va, n, pas, v, hd, hp, hm⟩
    · rw [hm]
    · rw [hm, Memory.read_writeLE_other hw (ha va n pas hd hp)]

end Sys2Proof.Machine
end

section
/-! SUPPORT. The accesses of the loads, stores and atomics (spec/20_memory.md R143, R151, R152, R160, R162): when an
access is translated, when it traps, and that a load gives back what a store put there (R142, R150). -/

namespace Sys2Proof.Machine

open Sys2Proof

/-! ### Untranslated accesses -/

theorem toNat_msb_rv32 (v : Word) : v.getLsbD 31 = true ↔ v.toNat / 2 ^ 31 % 2 = 1 := by
  rw [BitVec.getLsbD, Nat.testBit_eq_decide_div_mod_eq, decide_eq_true_eq]

/-- `satp.MODE` of RV64 is the four top bits (R90). -/
theorem satpMode_rv64 (v : Word) : v.extractLsb' 60 4 = 0#4 ↔ v.toNat / 2 ^ 60 = 0 := by
  have hv := v.isLt
  rw [← BitVec.toNat_inj, toNat_ext, BitVec.toNat_ofNat]
  omega

theorem satpTranslates_iff (x : Xlen) (v : Word) : satpTranslates x v = true ↔
    (match x with
      | .rv32 => v.toNat / 2 ^ 31 % 2 = 1
      | .rv64 => v.toNat / 2 ^ 60 ≠ 0) := by
  cases x
  · exact toNat_msb_rv32 v
  · exact bne_iff_ne.trans (satpMode_rv64 v).not

section Untranslated

variable {s : State} {it : Intent} (h : s.translating it = false) (va : Word) (n : Nat)
include h

theorem accessRuns_untranslated : s.accessRuns va n it =
    if (addrRange va.toNat n).all (accessible s.params) then (s.tlb, .ok (addrRange va.toNat n))
    else (s.tlb, .error .access) := by
  unfold State.accessRuns; rw [h]; rfl

theorem access_untranslated_ok (ha : ∀ k, k < n → accessible s.params (va.toNat + k) = true) :
    s.access va n it = .ok (addrRange va.toNat n) := by
  rw [access_ok_iff, accessRuns_untranslated h, if_pos (all_accessible_iff.2 ha)]

theorem access_untranslated_error (ha : ∃ k, k < n ∧ accessible s.params (va.toNat + k) = false) :
    s.access va n it = .error (MemFail.exc .access it) := by
  have hn : ¬ (addrRange va.toNat n).all (accessible s.params) = true := fun hc => by
    obtain ⟨k, hk, hf⟩ := ha
    rw [all_accessible_iff.1 hc k hk] at hf
    cases hf
  unfold State.access
  rw [accessRuns_untranslated h, if_neg hn]

/-- An untranslated access leaves the TLB alone, a failed one too. -/
theorem afterAccess_untranslated : s.afterAccess va n it = s := by
  have ht : s.accessTlb va n it = s.tlb := by
    unfold State.accessTlb
    rw [accessRuns_untranslated h]
    split_ifs
    · rfl
    · exact keepFills_eq (.refl s.params s.tlb)
  unfold State.afterAccess
  rw [ht]

end Untranslated

/-- Settles O45: the two tests of `Translating`, the test of an address, and the one range of an untranslated access. -/
theorem untranslatedAccess : Obligations.UntranslatedAccess := by
  unfold Obligations.UntranslatedAccess
  refine ⟨fun s it => ?_, fun s => ⟨rfl, fun it hi => ?_⟩, accessible_iff, fun s va n it h => ⟨?_, ?_, fun ha => ?_⟩⟩
  · exact Bool.and_eq_true_iff.trans (and_congr (satpTranslates_iff ..) decide_eq_true_iff)
  · cases it with
    | fetch => exact absurd rfl hi
    | load | store => rfl
  · exact afterAccess_untranslated h va n
  · exact access_untranslated_ok h va n
  · rw [access_untranslated_error h va n ha]
    cases it <;> rfl

/-! ### Traps of an access -/

section Traps

variable {ilen n : Nat} {ext : Word → Word} {g : Granule} {f : {w : Nat} → BitVec w → BitVec w → BitVec w}
  {rd rs1 rs2 : Reg} {off : Word} {s : State} {e : Exc}

theorem loadOp_misaligned (h : s.strictMisaligned (s.addr rs1 off) n = true) :
    loadOp ilen n ext rd rs1 off s = .next (s.excState .loadAddressMisaligned (s.addr rs1 off)) := if_pos h

theorem storeOp_misaligned (h : s.strictMisaligned (s.addr rs1 off) n = true) :
    storeOp ilen n rs1 rs2 off s = .next (s.excState .storeAddressMisaligned (s.addr rs1 off)) := if_pos h

theorem lrOp_misaligned (h : (s.reg rs1).toNat % g.bytes ≠ 0) :
    lrOp g rd rs1 s = .next (s.excState .loadAddressMisaligned (s.reg rs1)) := if_pos h

theorem scOp_misaligned (h : (s.reg rs1).toNat % g.bytes ≠ 0) :
    scOp g rd rs1 rs2 s = .next (s.excState .storeAddressMisaligned (s.reg rs1)) := if_pos h

theorem amoOp_misaligned (h : (s.reg rs1).toNat % g.bytes ≠ 0) :
    amoOp g f rd rs1 rs2 s = .next (s.excState .storeAddressMisaligned (s.reg rs1)) := if_pos h

theorem loadOp_error (h : s.strictMisaligned (s.addr rs1 off) n = false)
    (he : s.access (s.addr rs1 off) n .load = .error e) : loadOp ilen n ext rd rs1 off s =
      .next ((s.afterAccess (s.addr rs1 off) n .load).excState e (s.addr rs1 off)) := by
  unfold loadOp; rw [h, he]; rfl

theorem storeOp_error (h : s.strictMisaligned (s.addr rs1 off) n = false)
    (he : s.access (s.addr rs1 off) n .store = .error e) : storeOp ilen n rs1 rs2 off s =
      .next ((s.afterAccess (s.addr rs1 off) n .store).excState e (s.addr rs1 off)) := by
  unfold storeOp; rw [h, he]; rfl

theorem lrOp_error (h : (s.reg rs1).toNat % g.bytes = 0) (he : s.access (s.reg rs1) g.bytes .load = .error e) :
    lrOp g rd rs1 s = .next ((s.afterAccess (s.reg rs1) g.bytes .load).excState e (s.reg rs1)) := by
  unfold lrOp; rw [if_neg (not_not.2 h), he]; rfl

theorem scOp_error (h : (s.reg rs1).toNat % g.bytes = 0) (hr : s.resv = some { addr := s.reg rs1, size := g })
    (he : s.access (s.reg rs1) g.bytes .store = .error e) :
    scOp g rd rs1 rs2 s = .next ((s.afterAccess (s.reg rs1) g.bytes .store).excState e (s.reg rs1)) := by
  unfold scOp; rw [if_neg (not_not.2 h), if_pos hr, he]; rfl

theorem amoOp_error (h : (s.reg rs1).toNat % g.bytes = 0) (he : s.access (s.reg rs1) g.bytes .store = .error e) :
    amoOp g f rd rs1 rs2 s = .next ((s.afterAccess (s.reg rs1) g.bytes .store).excState e (s.reg rs1)) := by
  unfold amoOp; rw [if_neg (not_not.2 h), he]; rfl

theorem strictMisaligned_of_strict {va : Word} (hs : s.params.strictAlign = true) (h : va.toNat % n ≠ 0) :
    s.strictMisaligned va n = true := by simp [State.strictMisaligned, hs, h]

theorem strictMisaligned_of_ok {va : Word} (h : va.toNat % n = 0 ∨ s.params.strictAlign = false) :
    s.strictMisaligned va n = false := by
  unfold State.strictMisaligned
  rcases h with h | h <;> simp [h]

end Traps

/-- A data access that fails, of an instruction that is not stopped by its alignment, is a trap with its address. -/
theorem exec_access_error {i : Instr} {s : State} {va : Word} {n : Nat} {it : Intent} {e : Exc}
    (hd : i.dataAccess s = some (va, n, it))
    (ha : va.toNat % n = 0 ∨ (s.params.strictAlign = false ∧ (i.shape = .load ∨ i.shape = .store)))
    (he : s.access va n it = .error e) : exec i s = .next ((s.afterAccess va n it).excState e va) := by
  have aligned : i.shape ≠ .load → i.shape ≠ .store → va.toNat % n = 0 := fun h1 h2 =>
    ha.resolve_right fun h => h.2.elim h1 h2
  rcases dataAccess_shape hd with hs | hs | hs | hs | hs
  · obtain ⟨n, ext, rs1, off, -, hd', hx⟩ := exec_load hs s
    cases hd.symm.trans hd'
    rw [hx, loadOp_error (strictMisaligned_of_ok (ha.imp_right And.left)) he]
  · obtain ⟨n, rs1, rs2, off, -, hd', -, hx⟩ := exec_store hs s
    cases hd.symm.trans hd'
    rw [hx, storeOp_error (strictMisaligned_of_ok (ha.imp_right And.left)) he]
  · obtain ⟨g, rs1, hd', hx⟩ := exec_lr hs s
    cases hd.symm.trans hd'
    rw [hx, lrOp_error (aligned (by simp [hs]) (by simp [hs])) he]
  · obtain ⟨g, rs1, rs2, hd', hx⟩ := exec_sc hs s
    have hd2 := hd.symm.trans hd'
    split at hd2 <;> cases hd2
    rw [hx, scOp_error (aligned (by simp [hs]) (by simp [hs])) ‹_› he]
  · obtain ⟨g, f, rs1, rs2, hd', hx⟩ := exec_amo hs s
    cases hd.symm.trans hd'
    rw [hx, amoOp_error (aligned (by simp [hs]) (by simp [hs])) he]

/-- Settles O31: the alignment check comes first, then the access; both raise with the address. -/
theorem accessTraps : Obligations.AccessTraps := by
  unfold Obligations.AccessTraps
  refine ⟨fun i s va n hs hd hp ha => ?_, fun i s va n hs hd hp ha => ?_, fun i s va n hs hd ha => ?_,
    fun i s va n hs hd ha => ?_,
    fun s aq rl rd rs1 rs2 => ⟨scOp_misaligned (g := .word), scOp_misaligned (g := .double)⟩,
    fun i s va n it e hd ha he => ⟨exec_access_error hd ha he, accessTlb_onlyFills he⟩⟩
  · obtain ⟨n, ext, rs1, off, -, hd', hx⟩ := exec_load hs s
    cases hd.symm.trans hd'
    rw [hx, loadOp_misaligned (strictMisaligned_of_strict hp ha)]
  · obtain ⟨n, rs1, rs2, off, -, hd', -, hx⟩ := exec_store hs s
    cases hd.symm.trans hd'
    rw [hx, storeOp_misaligned (strictMisaligned_of_strict hp ha)]
  · obtain ⟨g, rs1, hd', hx⟩ := exec_lr hs s
    cases hd.symm.trans hd'
    rw [hx, lrOp_misaligned ha]
  · obtain ⟨g, f, rs1, rs2, hd', hx⟩ := exec_amo hs s
    cases hd.symm.trans hd'
    rw [hx, amoOp_misaligned ha]

/-! ### A store and a load -/

/-- The little-endian value of some bytes as a sum (R142). -/
theorem Memory.readLE_toNat (m : Memory) (pas : List Nat) (h : pas.length ≤ 8) :
    (m.readLE pas).toNat = leNat m pas := by
  induction pas with
  | nil => rfl
  | cons a as ih =>
    have h' : as.length < 8 := h
    rw [Memory.readLE_cons_toNat m a as h' (Memory.readLE_lt m as h'.le), ih h'.le, leNat]

theorem Memory.readLE_eq (m : Memory) (pas : List Nat) (h : pas.length ≤ 8) :
    m.readLE pas = BitVec.ofNat 64 (leNat m pas) := by
  rw [← Memory.readLE_toNat m pas h, BitVec.ofNat_toNat, BitVec.setWidth_eq]

/-- A store at different addresses is read back there: the low bytes of its value (R142, R150). -/
theorem leNat_writeLE {m : Memory} (h : m.wf) {pas : List Nat} (hd : pas.Nodup) (v : Word) :
    leNat (m.writeLE pas v) pas = v.toNat % 256 ^ pas.length := by
  induction pas generalizing m v with
  | nil => simp [leNat, Nat.mod_one]
  | cons a as ih =>
    obtain ⟨ha, hd⟩ := List.nodup_cons.1 hd
    have hw := Memory.wf_write a (v.setWidth 8) h
    rw [leNat, Memory.writeLE, ih hw hd, Memory.read_writeLE_other hw ha, Memory.read_write h, if_pos rfl,
      BitVec.toNat_setWidth, BitVec.toNat_ushiftRight, Nat.shiftRight_eq_div_pow, List.length_cons,
      Nat.pow_succ' (m := 256)]
    exact Nat.mod_mul.symm

section Untranslated

variable {ilen n : Nat} {rd rs1 rs2 : Reg} {off : Word} {s : State} (hp : s.params.strictAlign = false)
  (ha : ∀ k, k < n → accessible s.params ((s.addr rs1 off).toNat + k) = true)
include hp ha

theorem storeOp_untranslated (ht : s.translating .store = false) : storeOp ilen n rs1 rs2 off s =
    .next (((s.storeAt (addrRange (s.addr rs1 off).toNat n) (s.reg rs2)).clearResv).advance ilen) := by
  unfold storeOp
  rw [strictMisaligned_of_ok (.inr hp), access_untranslated_ok ht _ _ ha, afterAccess_untranslated ht]; rfl

theorem loadOp_untranslated {ext : Word → Word} (ht : s.translating .load = false) : loadOp ilen n ext rd rs1 off s =
    .next (s.wrote ilen rd (ext (s.mem.readLE (addrRange (s.addr rs1 off).toNat n)))) := by
  unfold loadOp
  rw [strictMisaligned_of_ok (.inr hp), access_untranslated_ok ht _ _ ha, afterAccess_untranslated ht]; rfl

/-- A store and a load of `n` bytes at the same operands on an untranslated hart: the load gives the low bytes,
extended. -/
theorem store_then_load (ext : Word → Word) (hw : s.mem.wf) (hn : n ≤ 8) (hl : s.translating .load = false)
    (hs : s.translating .store = false) (hr : rd ≠ 0#5) :
    ∃ t u, storeOp 4 n rs1 rs2 off s = .next t ∧ loadOp 4 n ext rd rs1 off t = .next u
      ∧ u.reg rd = truncX s.params.xlen (ext (BitVec.ofNat 64 ((s.reg rs2).toNat % 256 ^ n))) := by
  obtain ⟨t, ht⟩ : ∃ t, t = ((s.storeAt (addrRange (s.addr rs1 off).toNat n) (s.reg rs2)).clearResv).advance 4 :=
    ⟨_, rfl⟩
  have params : t.params = s.params := by rw [ht]; rfl
  have addr : t.addr rs1 off = s.addr rs1 off := by rw [ht]; rfl
  have trans : t.translating .load = false := by rw [ht]; exact hl
  have length : (addrRange (s.addr rs1 off).toNat n).length = n := addrRange_length ..
  have stored : t.mem.readLE (addrRange (s.addr rs1 off).toNat n) = BitVec.ofNat 64 ((s.reg rs2).toNat % 256 ^ n) := by
    rw [ht, advance_mem, clearResv_mem, storeAt_mem, Memory.readLE_eq _ _ (by omega),
      leNat_writeLE hw (addrRange_nodup ..), length]
  refine ⟨t, _, ht ▸ storeOp_untranslated hp ha hs,
    loadOp_untranslated (params ▸ hp) (by rwa [addr, params]) trans, ?_⟩
  rw [State.wrote, reg_advance, reg_setReg_self _ _ hr, params, addr, stored]

end Untranslated

theorem zextFrom_ofNat {k m : Nat} (h : m < 2 ^ k) (hk : k ≤ 64) :
    zextFrom k (BitVec.ofNat 64 m) = BitVec.ofNat 64 m := by
  have h64 : m < 2 ^ 64 := h.trans_le (Nat.pow_le_pow_right (by decide) hk)
  apply BitVec.eq_of_toNat_eq
  simp only [zextFrom, BitVec.toNat_setWidth, BitVec.toNat_ofNat]
  rw [Nat.mod_eq_of_lt h64, Nat.mod_eq_of_lt h, Nat.mod_eq_of_lt h64]

theorem truncI_natCast (x : Xlen) (m : Nat) : truncI x m = truncX x (BitVec.ofNat 64 m) := by
  rw [truncI, BitVec.ofInt_natCast]

/-- Settles O44: an untranslated access is at its own addresses, and what is stored there is read back. -/
theorem storeThenLoad : Obligations.StoreThenLoad := by
  unfold Obligations.StoreThenLoad
  intro s rd rs1 rs2 imm hw hp hl hs hr ha
  have sl := fun (n : Nat) (ext : Word → Word) (hn : n ≤ 8) =>
    store_then_load (rd := rd) (rs2 := rs2) (n := n) hp (fun k hk => ha k (by omega)) ext hw hn hl hs hr
  refine ⟨?_, ?_, ?_, ?_⟩
  · rw [truncI_natCast, ← zextFrom_ofNat (k := 8) (Nat.mod_lt _ (by decide)) (by decide)]
    exact sl 1 (zextFrom 8) (by decide)
  · rw [truncI_natCast, ← zextFrom_ofNat (k := 16) (Nat.mod_lt _ (by decide)) (by decide)]
    exact sl 2 (zextFrom 16) (by decide)
  · have low : sextFrom 32 (BitVec.ofNat 64 ((s.reg rs2).toNat % 256 ^ 4)) =
        (BitVec.ofNat 32 (s.reg rs2).toNat).signExtend 64 := by
      refine congrArg (BitVec.signExtend 64) (BitVec.eq_of_toNat_eq ?_)
      simp only [BitVec.toNat_setWidth, BitVec.toNat_ofNat]
      omega
    rw [sext32I_eq, BitVec.ofInt_natCast, ← low]
    exact sl 4 (sextFrom 32) (by decide)
  · have all : (s.reg rs2).toNat % 256 ^ 8 = (s.reg rs2).toNat := Nat.mod_eq_of_lt (s.reg rs2).isLt
    rw [truncI_natCast, ← all]
    exact sl 8 id (by decide)

end Sys2Proof.Machine
end

section
/-! SUPPORT. Address translation (spec/20_memory.md R163 to R173): the permission check, the page walk as the loop of
the rule, a translation that misses the TLB, and one that hits the entry of an earlier translation. -/

namespace Sys2Proof.Machine

open Sys2Proof

/-! ### The permission check -/

/-- Settles O49: the page conditions of each effective mode, and the bit that each intent needs. -/
theorem permissionCheck : Obligations.PermissionCheck := by
  unfold Obligations.PermissionCheck
  intro s r w x u
  have user : ∀ it, (!(decide (s.effPriv it = .u) && !u)) = true ↔ (s.effPriv it = .u → u = true) := fun it => by
    cases u <;> simp
  have super : ∀ (it : Intent) (deny : Bool), (!(decide (s.effPriv it = .s) && u && deny)) = true ↔
      (s.effPriv it = .s → u = true → deny = false) := fun it deny => by
    cases u <;> cases deny <;> simp
  have fetch : s.effPriv .fetch = s.priv := rfl
  refine ⟨?_, ?_, ?_⟩ <;> simp only [State.permitted, Bool.and_eq_true, user, super]
  · simp [fetch, and_comm]
  · simp [and_comm]
  · simp [and_comm]

/-! ### One entry of a page table (R164, R169) -/

theorem entryAddr_eq (x : Xlen) (a i : Nat) (va : Word) : entryAddr x a i va = a + vpnField x i va * pteBytes x := by
  cases x <;> rfl

theorem entryBytes_eq (x : Xlen) : entryBytes x = pteBytes x := by cases x <;> rfl

theorem pteBytes_le (x : Xlen) : pteBytes x ≤ 8 := by cases x <;> decide

theorem entryBit_iff (pte : Word) (i : Nat) : entryBit pte.toNat i ↔ pte.getLsbD i = true := by
  rw [entryBit, BitVec.getLsbD, Nat.testBit_eq_decide_div_mod_eq, decide_eq_true_eq]

theorem entryPpn_eq (x : Xlen) (pte : Word) : entryPpn x pte.toNat = (ptePpn x pte).toNat := by
  cases x
  · simp only [ptePpn, entryPpn, BitVec.toNat_setWidth, toNat_ext]; omega
  · simp only [ptePpn, entryPpn, toNat_ext]

theorem rootTable_eq (x : Xlen) (satp : Word) : rootTable x satp.toNat = (satpPpn x satp).toNat * 4096 := by
  cases x
  · simp only [satpPpn, rootTable, BitVec.toNat_setWidth, toNat_ext]; omega
  · simp only [satpPpn, rootTable, toNat_ext]; omega

/-! ### The walk (R165) -/

section Walk

variable {p : Params} {m : Memory} {va : Word} {i a b : Nat} {pte : Word} {f : MemFail}

theorem walk_of_fail (h : walkStep p m va i a = .fail f) : walk p m va i a = .error f := by
  cases i <;> simp [walk, h]

theorem walk_of_leaf (h : walkStep p m va i a = .leaf pte) : walk p m va i a = .ok (pte, i) := by
  cases i <;> simp [walk, h]

theorem walk_bottom (h : walkStep p m va 0 a = .pointer b) : walk p m va 0 a = .error .page := by simp [walk, h]

theorem walk_of_pointer (h : walkStep p m va (i + 1) a = .pointer b) : walk p m va (i + 1) a = walk p m va i b := by
  simp [walk, h]

/-- Every byte of the entry of level `i` in the table at `a` is accessible. -/
def EntryAccessible (p : Params) (va : Word) (i a : Nat) : Prop :=
  ∀ k, k < entryBytes p.xlen → accessible p (entryAddr p.xlen a i va + k) = true

/-- The value of that entry. -/
def tableEntry (p : Params) (m : Memory) (va : Word) (i a : Nat) : Word :=
  m.readLE (addrRange (entryAddr p.xlen a i va) (entryBytes p.xlen))

theorem tableEntry_toNat (p : Params) (m : Memory) (va : Word) (i a : Nat) :
    (tableEntry p m va i a).toNat = leNat m (addrRange (entryAddr p.xlen a i va) (entryBytes p.xlen)) :=
  Memory.readLE_toNat _ _ (by rw [addrRange_length, entryBytes_eq]; exact pteBytes_le _)

theorem walkStep_denied (h : ¬ EntryAccessible p va i a) : walkStep p m va i a = .fail .access := by
  unfold walkStep
  dsimp only
  rw [← entryAddr_eq, ← entryBytes_eq, Bool.eq_false_iff.2 (mt all_accessible_iff.1 h)]; rfl

theorem walkStep_accessible (h : EntryAccessible p va i a) : walkStep p m va i a =
    let pte := tableEntry p m va i a
    if !pteV pte || (!pteR pte && pteW pte) then .fail .page
    else if pteR pte || pteX pte then .leaf pte
    else .pointer ((ptePpn p.xlen pte).toNat * 4096) := by
  unfold walkStep
  dsimp only
  rw [← entryAddr_eq, ← entryBytes_eq, all_accessible_iff.2 h]; rfl

theorem walkStep_invalid (ha : EntryAccessible p va i a) (hpte : tableEntry p m va i a = pte)
    (h : pteV pte = false ∨ (pteR pte = false ∧ pteW pte = true)) : walkStep p m va i a = .fail .page := by
  rw [walkStep_accessible ha, hpte]
  rcases h with h | ⟨hr, hw⟩ <;> simp [*]

theorem walkStep_leaf (ha : EntryAccessible p va i a) (hpte : tableEntry p m va i a = pte) (hv : pteV pte = true)
    (hw : pteR pte = true ∨ pteW pte = false) (h : pteR pte = true ∨ pteX pte = true) :
    walkStep p m va i a = .leaf pte := by
  rw [walkStep_accessible ha, hpte]
  rcases h with h | h <;> rcases hw with hw | hw <;> simp [*]

theorem walkStep_pointer (ha : EntryAccessible p va i a) (hpte : tableEntry p m va i a = pte) (hv : pteV pte = true)
    (h : pteR pte = false ∧ pteW pte = false ∧ pteX pte = false) :
    walkStep p m va i a = .pointer (entryPpn p.xlen pte.toNat * 4096) := by
  obtain ⟨hr, hw, hx⟩ := h
  rw [walkStep_accessible ha, hpte, entryPpn_eq]
  simp [*]

/-- A table entry as a number is the value the model reads. -/
theorem eq_tableEntry {n : Nat} (h : n = leNat m (addrRange (entryAddr p.xlen a i va) (entryBytes p.xlen))) :
    n = (tableEntry p m va i a).toNat := by rw [tableEntry_toNat, h]

/-- Where the loop of the rule ends, the model's walk ends. -/
theorem walkEnd_of_walks {r : WalkEnd} (h : Walks p m va i a r) : walkEnd (walk p m va i a) = r := by
  induction h with
  | denied hk h =>
    rw [walk_of_fail (walkStep_denied fun ha => by rw [ha _ hk] at h; cases h)]; rfl
  | invalid pte hacc hpte h =>
    obtain rfl := eq_tableEntry hpte
    simp only [entryBit_iff, Bool.not_eq_true] at h
    rw [walk_of_fail (walkStep_invalid hacc rfl h)]; rfl
  | leaf pte hacc hpte hv hw h =>
    obtain rfl := eq_tableEntry hpte
    simp only [entryBit_iff, Bool.not_eq_true] at hv hw h
    rw [walk_of_leaf (walkStep_leaf hacc rfl hv hw h)]; rfl
  | bottom pte hacc hpte hv h =>
    obtain rfl := eq_tableEntry hpte
    simp only [entryBit_iff, Bool.not_eq_true] at hv h
    rw [walk_bottom (walkStep_pointer hacc rfl hv h)]; rfl
  | pointer pte hacc hpte hv h _ ih =>
    obtain rfl := eq_tableEntry hpte
    simp only [entryBit_iff, Bool.not_eq_true] at hv h
    rw [walk_of_pointer (walkStep_pointer hacc rfl hv h), ih]

/-- The loop ends at an entry where the model's walk ends, or the entry is a pointer. -/
theorem walks_or_pointer (hpte : tableEntry p m va i a = pte) : Walks p m va i a (walkEnd (walk p m va i a))
    ∨ (EntryAccessible p va i a ∧ pteV pte = true ∧ pteR pte = false ∧ pteW pte = false ∧ pteX pte = false) := by
  have hn : pte.toNat = leNat m (addrRange (entryAddr p.xlen a i va) (entryBytes p.xlen)) := hpte ▸ tableEntry_toNat ..
  by_cases ha : EntryAccessible p va i a
  · by_cases hi : pteV pte = false ∨ (pteR pte = false ∧ pteW pte = true)
    · rw [walk_of_fail (walkStep_invalid ha hpte hi)]
      refine .inl (.invalid _ ha hn ?_)
      simp only [entryBit_iff, Bool.not_eq_true]
      exact hi
    · have hv : pteV pte = true := by simpa using fun h => hi (.inl h)
      have hw : pteR pte = true ∨ pteW pte = false := by simpa [or_iff_not_imp_left] using fun h => hi (.inr h)
      by_cases hl : pteR pte = true ∨ pteX pte = true
      · rw [walk_of_leaf (walkStep_leaf ha hpte hv hw hl)]
        refine .inl (.leaf _ ha hn ?_ ?_ ?_)
        all_goals simpa only [entryBit_iff, Bool.not_eq_true]
      · simp only [not_or, Bool.not_eq_true] at hl
        obtain ⟨hr, hx⟩ := hl
        exact .inr ⟨ha, hv, hr, hw.resolve_left (by simp [hr]), hx⟩
  · rw [walk_of_fail (walkStep_denied ha)]
    unfold EntryAccessible at ha
    push Not at ha
    obtain ⟨k, hk, h⟩ := ha
    exact .inl (.denied hk (Bool.eq_false_iff.2 h))

/-- Where the model's walk ends, the loop of the rule ends. -/
theorem walks_walkEnd (p : Params) (m : Memory) (va : Word) (i a : Nat) :
    Walks p m va i a (walkEnd (walk p m va i a)) := by
  induction i generalizing a with
  | zero =>
    rcases walks_or_pointer (p := p) (m := m) (va := va) (i := 0) (a := a) rfl with h | ⟨ha, hv, hp⟩
    · exact h
    · rw [walk_bottom (walkStep_pointer ha rfl hv hp)]
      refine .bottom _ ha (tableEntry_toNat ..) ?_ ?_
      all_goals simpa only [entryBit_iff, Bool.not_eq_true]
  | succ i ih =>
    rcases walks_or_pointer (p := p) (m := m) (va := va) (i := i + 1) (a := a) rfl with h | ⟨ha, hv, hp⟩
    · exact h
    · rw [walk_of_pointer (walkStep_pointer ha rfl hv hp)]
      refine .pointer _ ha (tableEntry_toNat ..) ?_ ?_ (ih _)
      all_goals simpa only [entryBit_iff, Bool.not_eq_true]

end Walk

/-- Settles O47: by induction on the loop in one direction and on the level in the other. -/
theorem pageWalkFollowsTheRule : Obligations.PageWalkFollowsTheRule := by
  unfold Obligations.PageWalkFollowsTheRule
  exact fun p m va i a r => ⟨walkEnd_of_walks, fun h => h ▸ walks_walkEnd p m va i a⟩

/-! ### A translation that misses the TLB (R163, R164, R166, R168) -/

/-- The bits of an Sv39 address from bit 38 up are all 0 or all 1 (R164). -/
theorem canonical_iff (x : Xlen) (va : Word) : canonical x va = true ↔
    (x = .rv64 → va.toNat / 2 ^ 38 = 0 ∨ va.toNat / 2 ^ 38 = 2 ^ 26 - 1) := by
  cases x with
  | rv32 => exact iff_of_true rfl nofun
  | rv64 =>
    have hv := va.isLt
    rw [canonical, beq_iff_eq, ← BitVec.toNat_inj, sextFrom, BitVec.toNat_signExtend, BitVec.msb_eq_decide,
      BitVec.toNat_setWidth, BitVec.toNat_setWidth]
    simp only [true_imp_iff, decide_eq_true_eq]
    split <;> omega

theorem newestHit_none {f : TlbEntry → Bool} {es : List TlbEntry} (h : ∀ e ∈ es, f e = false) :
    newestHit f es = none := by
  induction es with
  | nil => rfl
  | cons e es ih => simp [newestHit, ih fun a ha => h a (List.mem_cons_of_mem _ ha), h e (by simp)]

/-- What a leaf has to pass (R163, R167), in terms of the bits of the entry. -/
theorem leafOk_iff (s : State) (it : Intent) (pte : Word) (i : Nat) : s.leafOk it pte i = true ↔
    s.permitted it (decide (pte.toNat / 2 % 2 = 1)) (decide (pte.toNat / 4 % 2 = 1)) (decide (pte.toNat / 8 % 2 = 1))
        (decide (pte.toNat / 16 % 2 = 1)) = true
      ∧ entryPpn s.params.xlen pte.toNat % 2 ^ (vpnBits s.params.xlen * i) = 0 ∧ entryBit pte.toNat 6
      ∧ (it = .store → entryBit pte.toNat 7) := by
  have bit : ∀ k, pte.getLsbD k = decide (pte.toNat / 2 ^ k % 2 = 1) := fun k => Nat.testBit_eq_decide_div_mod_eq ..
  have store : (decide (it ≠ .store) || pteD pte) = true ↔ (it = .store → pteD pte = true) := by
    cases it <;> simp
  rw [State.leafOk, Bool.and_eq_true, store, Bool.and_eq_true, Bool.and_eq_true, decide_eq_true_eq, entryPpn_eq,
    entryBit_iff, entryBit_iff, and_assoc, and_assoc]
  unfold pteR pteW pteX pteU
  rw [bit 1, bit 2, bit 3, bit 4]
  rfl

section Miss

variable {s : State} {t : Tlb} {va pte : Word} {it : Intent} {i : Nat}
  (hc : canonical s.params.xlen va = true)
  (hm : newestHit (TlbEntry.hits s.params.xlen s.csr.satp va) (t.entries it) = none)
include hc hm

theorem translate_fault {f : MemFail} (hw : walk s.params s.mem va (levels s.params.xlen - 1)
    (rootTable s.params.xlen s.csr.satp.toNat) = .error f) : s.translate t va it = (t, .error f) := by
  rw [rootTable_eq] at hw
  simp [State.translate, hc, hm, hw]

variable (hw : walk s.params s.mem va (levels s.params.xlen - 1) (rootTable s.params.xlen s.csr.satp.toNat) =
  .ok (pte, i))
include hw

theorem translate_leaf (hl : s.leafOk it pte i = true) :
    (s.translate t va it).2 = .ok (compose s.params.xlen (ptePpn s.params.xlen pte) i va) := by
  rw [rootTable_eq] at hw
  simp [State.translate, hc, hm, hw, hl]

theorem translate_bad_leaf (hl : ¬ s.leafOk it pte i = true) : s.translate t va it = (t, .error .page) := by
  rw [rootTable_eq] at hw
  simp [State.translate, hc, hm, hw, hl]

end Miss

theorem translate_not_canonical {s : State} {t : Tlb} {va : Word} {it : Intent}
    (hc : ¬ canonical s.params.xlen va = true) : s.translate t va it = (t, .error .page) := by
  simp [State.translate, hc]

/-- Settles O48: the walk ends as the loop of the rule does, and a leaf passes its checks or faults. -/
theorem translationOnMiss : Obligations.TranslationOnMiss := by
  unfold Obligations.TranslationOnMiss
  dsimp only
  intro s t va it
  rw [← canonical_iff]
  refine ⟨translate_not_canonical, fun hc hm r hr => ?_⟩
  have hm := newestHit_none hm
  obtain rfl := walkEnd_of_walks hr
  cases hw : walk s.params s.mem va (levels s.params.xlen - 1) (rootTable s.params.xlen s.csr.satp.toNat) with
  | error f => cases f <;> exact translate_fault hc hm hw
  | ok leaf =>
    obtain ⟨pte, i⟩ := leaf
    refine ⟨fun ok => ?_, fun bad => translate_bad_leaf hc hm hw ((leafOk_iff ..).not.2 bad)⟩
    rw [translate_leaf hc hm hw ((leafOk_iff ..).2 ok), entryPpn_eq]
    rfl

/-! ### A translation that hits (R171 to R173) -/

/-- A lookup finds the matching entry whose stamp is larger than that of every other entry (R171). -/
theorem newestHit_newest {f : TlbEntry → Bool} {es : List TlbEntry} {a : TlbEntry} (ha : a ∈ es) (hf : f a = true)
    (h : ∀ e ∈ es, e = a ∨ e.stamp < a.stamp) : ∃ k, newestHit f es = some (k, a) := by
  induction es with
  | nil => cases ha
  | cons e es ih =>
    have he := h e (by simp)
    have ih := fun hm => ih hm fun b hb => h b (List.mem_cons_of_mem _ hb)
    cases hn : newestHit f es with
    | none =>
      obtain rfl | hm := List.mem_cons.1 ha
      · exact ⟨0, by simp [newestHit, hn, hf]⟩
      · obtain ⟨k, hk⟩ := ih hm; rw [hn] at hk; cases hk
    | some kb =>
      obtain ⟨k, b⟩ := kb
      by_cases hm : a ∈ es
      · obtain ⟨j, hj⟩ := ih hm
        rw [hn] at hj; cases hj
        have old : ¬ a.stamp < e.stamp := by rcases he with rfl | he <;> omega
        exact ⟨k + 1, by simp [newestHit, hn, old]⟩
      · obtain rfl : a = e := (List.mem_cons.1 ha).resolve_right hm
        have hb : b ∈ es := List.mem_of_getElem? (newestHit_spec hn).1
        have new : b.stamp < a.stamp := (h b (List.mem_cons_of_mem _ hb)).resolve_left fun hba => hm (hba ▸ hb)
        exact ⟨0, by simp [newestHit, hn, hf, new]⟩

/-- A hit that is permitted gives the composed address of its entry (R172). -/
theorem translate_hit {s : State} {t : Tlb} {va : Word} {it : Intent} {k : Nat} {e : TlbEntry}
    (hc : canonical s.params.xlen va = true)
    (hit : newestHit (TlbEntry.hits s.params.xlen s.csr.satp va) (t.entries it) = some (k, e))
    (hp : s.permitted it e.r e.w e.x e.u = true) :
    (s.translate t va it).2 = .ok (compose s.params.xlen e.ppn e.level va) := by
  simp [State.translate, hc, hit, hp]

/-- After one event of an array that left the matching entry `a` with the stamp of the event, a translation hits `a`. -/
theorem translate_newest {s : State} {t t' : Tlb} {va : Word} {it : Intent} {a : TlbEntry}
    (hs : ∀ e ∈ t.entries it, e.stamp ≤ t.clock) (hold : ∀ e ∈ t'.entries it, e ∈ t.entries it ∨ e = a)
    (ha : a ∈ t'.entries it) (hst : a.stamp = t.clock + 1) (hc : canonical s.params.xlen va = true)
    (hf : a.hits s.params.xlen s.csr.satp va = true) (hp : s.permitted it a.r a.w a.x a.u = true) :
    (s.translate t' va it).2 = .ok (compose s.params.xlen a.ppn a.level va) := by
  have newest : ∀ e ∈ t'.entries it, e = a ∨ e.stamp < a.stamp := fun e he =>
    (hold e he).symm.imp_right fun ho => by have := hs e ho; omega
  obtain ⟨k, hk⟩ := newestHit_newest (f := TlbEntry.hits s.params.xlen s.csr.satp va) ha hf newest
  exact translate_hit hc hk hp

theorem oldestSlot_lt {es : List TlbEntry} {i st : Nat} (h : oldestSlot es = some (i, st)) : i < es.length := by
  induction es generalizing i st with
  | nil => cases h
  | cons e es ih =>
    unfold oldestSlot at h
    split at h
    · cases h; exact Nat.zero_lt_succ _
    · split at h <;> cases h
      · exact Nat.zero_lt_succ _
      · exact Nat.succ_lt_succ (ih ‹_›)

theorem oldestSlot_none {es : List TlbEntry} (h : oldestSlot es = none) : es = [] := by
  cases es with
  | nil => rfl
  | cons e es =>
    unfold oldestSlot at h
    split at h
    · cases h
    · split at h <;> cases h

/-- An array of at least one slot holds the entry that was inserted (R173). -/
theorem mem_placeEntry {n : Nat} (hn : 1 ≤ n) (e : TlbEntry) (es : List TlbEntry) : e ∈ placeEntry n e es := by
  unfold placeEntry
  split
  · rename_i hi
    obtain ⟨hlt, -⟩ := List.findIdx?_eq_some_iff_getElem.1 hi
    exact List.mem_set hlt e
  · split
    · simp
    · rename_i hfull
      split
      · exact List.mem_set (oldestSlot_lt ‹_›) e
      · rename_i hnone
        rw [oldestSlot_none hnone] at hfull
        exact absurd hn hfull

theorem mem_of_mem_placeEntry {n : Nat} {a e : TlbEntry} {es : List TlbEntry} (h : e ∈ placeEntry n a es) :
    e ∈ es ∨ e = a := by
  obtain ⟨k, hk⟩ := List.mem_iff_getElem?.1 h
  exact (placeEntry_slot hk).imp_left List.mem_of_getElem?

/-- The entry an insertion makes of the leaf `pte` of level `i` (R170, R173). -/
def newEntry (p : Params) (satp : Word) (t : Tlb) (va pte : Word) (i : Nat) : TlbEntry where
  valid := true
  vpn := vpnOf p.xlen va
  level := i
  asid := satpAsid p.xlen satp
  ppn := ptePpn p.xlen pte
  r := pteR pte
  w := pteW pte
  x := pteX pte
  u := pteU pte
  g := pteG pte
  a := pteA pte
  d := pteD pte
  stamp := t.clock + 1

theorem entries_insert (p : Params) (satp : Word) (t : Tlb) (it : Intent) (va pte : Word) (i : Nat) :
    (t.insert p satp it va pte i).entries it = placeEntry p.tlbK (newEntry p satp t va pte i) (t.entries it) := by
  rw [Tlb.insert, entries_setEntries, if_pos rfl]; rfl

theorem entries_touch (t : Tlb) (it : Intent) (slot : Nat) (e : TlbEntry) :
    (t.touch it slot e).entries it = (t.entries it).set slot { e with stamp := t.clock + 1 } := by
  rw [Tlb.touch, entries_setEntries, if_pos rfl]

theorem permitted_of_leafOk {s : State} {it : Intent} {pte : Word} {i : Nat} (h : s.leafOk it pte i = true) :
    s.permitted it (pteR pte) (pteW pte) (pteX pte) (pteU pte) = true := by
  simp only [State.leafOk, Bool.and_eq_true] at h
  exact h.1.1.1

/-- Settles O50: a hit renews the stamp of its entry and a miss inserts one with a new stamp, so the next lookup finds
that entry; memory is not read. -/
theorem tlbHitKeepsTranslation : Obligations.TlbHitKeepsTranslation := by
  unfold Obligations.TlbHitKeepsTranslation
  intro s t t' va it pa m hk hs h
  obtain ⟨hc, ⟨slot, e, hit, hp, rfl, rfl⟩ | ⟨pte, i, -, hl, rfl, rfl⟩⟩ := translate_ok h
  · obtain ⟨he, hf⟩ := newestHit_spec hit
    refine translate_newest (t := t) (a := { e with stamp := t.clock + 1 }) hs (fun o ho => ?_) ?_ rfl hc hf hp
    · exact List.mem_or_eq_of_mem_set (entries_touch .. ▸ ho)
    · rw [entries_touch]
      exact List.mem_set (List.getElem?_eq_some_iff.1 he).1 _
  · refine translate_newest (t := t) (a := newEntry s.params s.csr.satp t va pte i) hs (fun o ho => ?_) ?_ rfl hc ?_
      (permitted_of_leafOk hl)
    · exact mem_of_mem_placeEntry (entries_insert .. ▸ ho)
    · rw [entries_insert]
      exact mem_placeEntry hk ..
    · simp [TlbEntry.hits, sameVpn, newEntry]

end Sys2Proof.Machine
end

section
/-! SUPPORT. Instruction words as bytes (spec/20_memory.md R150, spec/30_encoding.md R221): the low two bits of an
encoding tell its length, so the bytes of a well-formed instruction decode to it (R234). -/

namespace Sys2Proof

/-! ### The length of an encoding (R221) -/

/-- Two bytes of a word next to each other are 16 of its bits. -/
theorem parcelOf_extract {n : Nat} (v : BitVec n) (k : Nat) :
    parcelOf (v.extractLsb' k 8) (v.extractLsb' (k + 8) 8) = v.extractLsb' k 16 :=
  BitVec.extractLsb'_append_extractLsb'_eq_extractLsb' rfl

theorem op_low {w : BitVec 32} {op : BitVec 7} (h : Field.op w = op) (ho : op.extractLsb' 0 2 = 3#2) :
    w.extractLsb' 0 2 = 3#2 := by
  subst h
  rw [← BitVec.toNat_inj] at ho ⊢
  simp only [Field.op, toNat_ext, BitVec.toNat_ofNat] at ho ⊢
  omega

/-- The low two bits of a 32-bit word that decodes are 11. -/
theorem decode32_low {x : Xlen} {w : BitVec 32} {i : Instr} (h : decode32 x w = .ok i) : w.extractLsb' 0 2 = 3#2 := by
  by_contra hn
  have other : ∀ op : BitVec 7, op.extractLsb' 0 2 = 3#2 → ¬ Field.op w = op := fun op ho he => hn (op_low he ho)
  simp (disch := decide) [decode32, other] at h

/-- The low two bits of a parcel that decodes are not 11. -/
theorem decode16_low {x : Xlen} {c : BitVec 16} {i : Instr} (h : decode16 x c = .ok i) : c.extractLsb' 0 2 ≠ 3#2 := by
  intro hc
  simp [decode16, Parcel.quad, hc] at h

/-- The bytes of a word that decodes are cut back to that word. -/
theorem takeWord_bytes {x : Xlen} {c : Bool} {iw : InstWord} {i : Instr} (h : decodeInst x c iw = .ok i)
    (rest : List Byte) : takeWord (iw.bytes ++ rest) = .ok (iw, rest) := by
  cases iw with
  | half p =>
    cases c with
    | false => cases h
    | true =>
      have hp : parcelOf (p.extractLsb' 0 8) (p.extractLsb' 8 8) = p :=
        (parcelOf_extract p 0).trans BitVec.extractLsb'_eq_self
      unfold takeWord
      simp only [InstWord.bytes, List.cons_append, List.nil_append, hp]
      exact if_neg (decode16_low h)
  | full w =>
    have lo : parcelOf (w.extractLsb' 0 8) (w.extractLsb' 8 8) = w.extractLsb' 0 16 := parcelOf_extract w 0
    have hi : parcelOf (w.extractLsb' 16 8) (w.extractLsb' 24 8) = w.extractLsb' 16 16 := parcelOf_extract w 16
    have low : (w.extractLsb' 0 16).extractLsb' 0 2 = 3#2 := by
      rw [← decode32_low h, ← BitVec.toNat_inj]
      simp only [toNat_ext]
      omega
    have whole : w.extractLsb' 16 16 ++ w.extractLsb' 0 16 = w :=
      (BitVec.extractLsb'_append_extractLsb'_eq_extractLsb' rfl).trans BitVec.extractLsb'_eq_self
    unfold takeWord
    simp only [InstWord.bytes, List.cons_append, List.nil_append, lo, hi, whole]
    exact if_pos low

theorem decodeBytes_bytes {x : Xlen} {c : Bool} {iw : InstWord} {i : Instr} (h : decodeInst x c iw = .ok i)
    (rest : List Byte) : decodeBytes x c (iw.bytes ++ rest) = .ok (i, rest) := by
  unfold decodeBytes
  rw [takeWord_bytes h rest]
  dsimp only
  rw [h]

namespace Laws.RoundTrip

/-- The decode round trip (R234) of every instruction, from that of each constructor. -/
theorem decodeInst_encode : ∀ i : Instr, Statement i
  | .lui a b => lui a b | .auipc a b => auipc a b | .addi a b c => addi a b c | .slti a b c => slti a b c
  | .sltiu a b c => sltiu a b c | .xori a b c => xori a b c | .ori a b c => ori a b c | .andi a b c => andi a b c
  | .slli a b c => slli a b c | .srli a b c => srli a b c | .srai a b c => srai a b c | .add a b c => add a b c
  | .sub a b c => sub a b c | .sll a b c => sll a b c | .slt a b c => slt a b c | .sltu a b c => sltu a b c
  | .xor a b c => xor a b c | .srl a b c => srl a b c | .sra a b c => sra a b c | .or a b c => or a b c
  | .and a b c => and a b c | .addiw a b c => addiw a b c | .slliw a b c => slliw a b c
  | .srliw a b c => srliw a b c | .sraiw a b c => sraiw a b c | .addw a b c => addw a b c
  | .subw a b c => subw a b c | .sllw a b c => sllw a b c | .srlw a b c => srlw a b c | .sraw a b c => sraw a b c
  | .mul a b c => mul a b c | .mulh a b c => mulh a b c | .mulhsu a b c => mulhsu a b c
  | .mulhu a b c => mulhu a b c | .div a b c => div a b c | .divu a b c => divu a b c | .rem a b c => rem a b c
  | .remu a b c => remu a b c | .mulw a b c => mulw a b c | .divw a b c => divw a b c | .divuw a b c => divuw a b c
  | .remw a b c => remw a b c | .remuw a b c => remuw a b c | .jal a b => jal a b | .jalr a b c => jalr a b c
  | .beq a b c => beq a b c | .bne a b c => bne a b c | .blt a b c => blt a b c | .bge a b c => bge a b c
  | .bltu a b c => bltu a b c | .bgeu a b c => bgeu a b c | .lb a b c => lb a b c | .lh a b c => lh a b c
  | .lw a b c => lw a b c | .ld a b c => ld a b c | .lbu a b c => lbu a b c | .lhu a b c => lhu a b c
  | .lwu a b c => lwu a b c | .sb a b c => sb a b c | .sh a b c => sh a b c | .sw a b c => sw a b c
  | .sd a b c => sd a b c | .lrW a b c d => lrW a b c d | .lrD a b c d => lrD a b c d
  | .scW a b c d e => scW a b c d e | .scD a b c d e => scD a b c d e | .amoswapW a b c d e => amoswapW a b c d e
  | .amoswapD a b c d e => amoswapD a b c d e | .amoaddW a b c d e => amoaddW a b c d e
  | .amoaddD a b c d e => amoaddD a b c d e | .amoxorW a b c d e => amoxorW a b c d e
  | .amoxorD a b c d e => amoxorD a b c d e | .amoandW a b c d e => amoandW a b c d e
  | .amoandD a b c d e => amoandD a b c d e | .amoorW a b c d e => amoorW a b c d e
  | .amoorD a b c d e => amoorD a b c d e | .amominW a b c d e => amominW a b c d e
  | .amominD a b c d e => amominD a b c d e | .amomaxW a b c d e => amomaxW a b c d e
  | .amomaxD a b c d e => amomaxD a b c d e | .amominuW a b c d e => amominuW a b c d e
  | .amominuD a b c d e => amominuD a b c d e | .amomaxuW a b c d e => amomaxuW a b c d e
  | .amomaxuD a b c d e => amomaxuD a b c d e | .csrrw a b c => csrrw a b c | .csrrs a b c => csrrs a b c
  | .csrrc a b c => csrrc a b c | .csrrwi a b c => csrrwi a b c | .csrrsi a b c => csrrsi a b c
  | .csrrci a b c => csrrci a b c | .fence a b c d e => fence a b c d e | .fenceI a b c => fenceI a b c
  | .ecall => ecall | .ebreak => ebreak | .sret => sret | .mret => mret | .wfi => wfi
  | .sfenceVma a b => sfenceVma a b | .cAddi4spn a b => cAddi4spn a b | .cFld a b c => cFld a b c
  | .cLw a b c => cLw a b c | .cFlw a b c => cFlw a b c | .cLd a b c => cLd a b c | .cFsd a b c => cFsd a b c
  | .cSw a b c => cSw a b c | .cFsw a b c => cFsw a b c | .cSd a b c => cSd a b c | .cNop a => cNop a
  | .cAddi a b => cAddi a b | .cJal a => cJal a | .cAddiw a b => cAddiw a b | .cLi a b => cLi a b
  | .cAddi16sp a => cAddi16sp a | .cLui a b => cLui a b | .cSrli a b => cSrli a b | .cSrai a b => cSrai a b
  | .cAndi a b => cAndi a b | .cSub a b => cSub a b | .cXor a b => cXor a b | .cOr a b => cOr a b
  | .cAnd a b => cAnd a b | .cSubw a b => cSubw a b | .cAddw a b => cAddw a b | .cJ a => cJ a
  | .cBeqz a b => cBeqz a b | .cBnez a b => cBnez a b | .cSlli a b => cSlli a b | .cFldsp a b => cFldsp a b
  | .cLwsp a b => cLwsp a b | .cFlwsp a b => cFlwsp a b | .cLdsp a b => cLdsp a b | .cJr a => cJr a
  | .cMv a b => cMv a b | .cEbreak => cEbreak | .cJalr a => cJalr a | .cAdd a b => cAdd a b
  | .cFsdsp a b => cFsdsp a b | .cSwsp a b => cSwsp a b | .cFswsp a b => cFswsp a b | .cSdsp a b => cSdsp a b

end Laws.RoundTrip

/-- Settles O4: the round trip of the instruction, and its bytes cut back to its word. -/
theorem decodeBytesOfEncode : Obligations.DecodeBytesOfEncode := by
  unfold Obligations.DecodeBytesOfEncode
  exact fun x i rest h => decodeBytes_bytes (Laws.RoundTrip.decodeInst_encode i x h) rest

end Sys2Proof
end

section
/-! SUPPORT. The traps of a fetch and of a decode (spec/30_encoding.md R220, R247, spec/60_exceptions.md R621, R622). -/

namespace Sys2Proof.Machine

open Sys2Proof

theorem boundary_none {s : State} (hh : s.haltRequested = false) (hi : s.interruptPending = none) :
    s.boundary = none := by
  unfold State.boundary; rw [hh, hi]; rfl

/-- The end of a step that raises after a fetch left `s1`. -/
theorem settle_raise {s s1 : State} (hk : s1 = { s with tlb := s1.tlb }) (e : Exc) (v : Word) :
    s.settle (s1.raise e v) = .next ({ s with tlb := s.tlb.keepFills s1.tlb }.excState e v) := by
  rw [hk]; rfl

section FetchTraps

variable {s s1 : State} (hh : s.haltRequested = false) (hi : s.interruptPending = none)
include hh hi

theorem step_fetch_error {e : Exc} {v : Word} (hf : s.fetch = (s1, .error (e, v))) :
    step s = .next ({ s with tlb := s.tlb.keepFills s1.tlb }.excState e v) := by
  have hk := fetch_keeps s
  rw [hf] at hk
  unfold step State.fetchInstr
  rw [boundary_none hh hi, hf]
  exact settle_raise hk e v

theorem step_decode_error {iw : InstWord} {r : Reject} (hf : s.fetch = (s1, .ok iw))
    (hd : decodeInst s.params.xlen s.params.cEnabled iw = .error r) :
    step s = .next ({ s with tlb := s.tlb.keepFills s1.tlb }.excState .illegalInstruction iw.bits) := by
  have hk := fetch_keeps s
  rw [hf] at hk
  unfold step State.fetchInstr
  rw [boundary_none hh hi, hf]
  dsimp only
  rw [hd]
  exact settle_raise hk ..

end FetchTraps

theorem fetch_error_first {s : State} {e : Exc} (h : s.access s.pc 2 .fetch = .error e) :
    s.fetch = (s.afterAccess s.pc 2 .fetch, .error (e, s.pc)) := by
  unfold State.fetch; rw [h]

theorem fetch_error_second {s : State} {pas : List Nat} {e : Exc} (h0 : s.access s.pc 2 .fetch = .ok pas)
    (hl : (s.parcelAt pas).extractLsb' 0 2 = 3#2)
    (h1 : (s.afterAccess s.pc 2 .fetch).access s.pc2 2 .fetch = .error e) :
    s.fetch = ((s.afterAccess s.pc 2 .fetch).afterAccess s.pc2 2 .fetch, .error (e, s.pc2)) := by
  unfold State.fetch
  rw [h0]
  dsimp only
  rw [if_pos hl, h1]

/-- The low two bits of a parcel in memory (R150, R221). -/
theorem parcelAt_low {s : State} {pas : List Nat} (hn : pas.length ≤ 8) :
    (s.parcelAt pas).extractLsb' 0 2 = 3#2 ↔ leNat s.mem pas % 4 = 3 := by
  rw [← BitVec.toNat_inj, toNat_ext, State.parcelAt, BitVec.toNat_setWidth, Memory.readLE_toNat _ _ hn,
    BitVec.toNat_ofNat]
  omega

/-- A trap in a step leaves of the TLB's changes only insertions. -/
theorem step_trapped_onlyFills {s t : State} (h : step s = .next t) (ht : t.trapped = true) :
    Tlb.OnlyFills s.params s.tlb t.tlb := by
  rcases step_next h with ⟨-, rfl⟩ | ⟨code, tg, -, rfl⟩ | h | ⟨iw, i, -, -, hf, -⟩
  · exact .refl ..
  · exact .refl ..
  · obtain ⟨-, -, -, -, -, hk⟩ := h.keeps
    exact hk
  · rw [ht] at hf; cases hf

/-- Settles O7: a raise takes back the hits of the fetch; a failed access has taken its own back already. -/
theorem fetchAndDecodeTraps : Obligations.FetchAndDecodeTraps := by
  unfold Obligations.FetchAndDecodeTraps
  refine ⟨fun s e hh hi h => ?_, fun s pas e hh hi h0 hl h1 => ?_, fun s s1 iw r hh hi hf hd => ?_,
    fun s t => step_trapped_onlyFills⟩
  · rw [step_fetch_error hh hi (fetch_error_first h), afterAccess_tlb, keepFills_eq (accessTlb_onlyFills h)]; rfl
  · exact step_fetch_error hh hi (fetch_error_second h0 ((parcelAt_low (by rw [access_length h0]; decide)).2 hl) h1)
  · exact step_decode_error hh hi hf hd

end Sys2Proof.Machine
end

section
/-! SUPPORT. Strict decoding (spec/30_encoding.md R222, R232, R234, R242, R244): a word is put together again from its
fields, so an answer of the decoder is encoded as the word it was read from. -/

namespace Sys2Proof

/-! ### A word is its fields (R223, R240)

Each format, filled from the fields of a word that has the format's fixed bits, is that word. -/

section Words

variable {w : BitVec 32} {op : BitVec 7} {f3 : BitVec 3}

theorem uType_fields (ho : Field.op w = op) : uType (Field.imm20 w) (Field.rd w) op = w := by
  subst ho
  apply BitVec.eq_of_toNat_eq
  simp only [uType_toNat, Field.imm20, Field.rd, Field.op, toNat_ext]
  omega

theorem iType_fields (h3 : Field.funct3 w = f3) (ho : Field.op w = op) :
    iType (Field.imm12 w) (Field.rs1 w) f3 (Field.rd w) op = w := by
  subst h3 ho
  apply BitVec.eq_of_toNat_eq
  simp only [iType_toNat, Field.imm12, Field.rs1, Field.funct3, Field.rd, Field.op, toNat_ext]
  omega

theorem rType_fields {f7 : BitVec 7} (h7 : Field.funct7 w = f7) (h3 : Field.funct3 w = f3) (ho : Field.op w = op) :
    rType f7 (Field.rs2 w) (Field.rs1 w) f3 (Field.rd w) op = w := by
  subst h7 h3 ho
  apply BitVec.eq_of_toNat_eq
  simp only [rType_toNat, Field.funct7, Field.rs2, Field.rs1, Field.funct3, Field.rd, Field.op, toNat_ext]
  omega

theorem shiftType_fields {f6 : BitVec 6} (h6 : Field.funct6 w = f6) (h3 : Field.funct3 w = f3)
    (ho : Field.op w = 0b0010011#7) : shiftType f6 (Field.shamt w) (Field.rs1 w) f3 (Field.rd w) = w := by
  subst h6 h3
  rw [← BitVec.toNat_inj, Field.op, toNat_ext, BitVec.toNat_ofNat] at ho
  apply BitVec.eq_of_toNat_eq
  simp only [shiftType_toNat, Field.funct6, Field.shamt, Field.rs1, Field.funct3, Field.rd, toNat_ext]
  omega

/-- The S immediate is cut where the R format cuts (R224). -/
theorem sType_fields (h3 : Field.funct3 w = f3) (ho : Field.op w = 0b0100011#7) :
    sType (Field.funct7 w ++ Field.rd w) (Field.rs2 w) (Field.rs1 w) f3 = w := by
  have hi : (Field.funct7 w ++ Field.rd w).extractLsb' 5 7 = Field.funct7 w := by
    apply BitVec.eq_of_toNat_eq; rw [toNat_ext, toNat_app]; omega
  have lo : (Field.funct7 w ++ Field.rd w).extractLsb' 0 5 = Field.rd w := by
    apply BitVec.eq_of_toNat_eq; rw [toNat_ext, toNat_app]; omega
  rw [sType, hi, lo]
  exact rType_fields rfl h3 ho

theorem bType_fields (h3 : Field.funct3 w = f3) (ho : Field.op w = 0b1100011#7) :
    bType (Imm.gatherB (Field.funct7 w) (Field.rd w)) (Field.rs2 w) (Field.rs1 w) f3 = w := by
  rw [bType, scatterBHi_gather, scatterBLo_gather]
  exact rType_fields rfl h3 ho

theorem amoType_fields {f5 : BitVec 5} (h5 : Field.funct5 w = f5) (h3 : Field.funct3 w = f3)
    (ho : Field.op w = 0b0101111#7) :
    amoType f5 (Field.aq w) (Field.rl w) (Field.rs2 w) (Field.rs1 w) f3 (Field.rd w) = w := by
  subst h5 h3
  rw [← BitVec.toNat_inj, Field.op, toNat_ext, BitVec.toNat_ofNat] at ho
  apply BitVec.eq_of_toNat_eq
  simp only [amoType_toNat, Field.funct5, Field.aq, Field.rl, Field.rs2, Field.rs1, Field.funct3, Field.rd, toNat_ext,
    BitVec.getLsbD, Nat.toNat_testBit]
  omega

theorem fenceType_fields (h3 : Field.funct3 w = 0#3) (ho : Field.op w = 0b0001111#7) :
    fenceType (Field.fm w) (Field.pred w) (Field.succ w) (Field.rs1 w) (Field.rd w) = w := by
  rw [← BitVec.toNat_inj, Field.op, toNat_ext, BitVec.toNat_ofNat] at ho
  rw [← BitVec.toNat_inj, Field.funct3, toNat_ext, BitVec.toNat_ofNat] at h3
  apply BitVec.eq_of_toNat_eq
  simp only [fenceType_toNat, Field.fm, Field.pred, Field.succ, Field.rs1, Field.rd, toNat_ext]
  omega

end Words

section Parcels

variable {c : BitVec 16} {f3 : BitVec 3} {q : BitVec 2}

theorem ciType_fields (h3 : Parcel.funct3 c = f3) (hq : Parcel.quad c = q) :
    ciType f3 (Parcel.b12 c) (Parcel.rd c) (Parcel.lo5 c) q = c := by
  subst h3 hq
  apply BitVec.eq_of_toNat_eq
  simp only [ciType_toNat, Parcel.funct3, Parcel.b12, Parcel.rd, Parcel.lo5, Parcel.quad, toNat_ext]
  omega

theorem quad_toNat (h : Parcel.quad c = q) : c.toNat % 4 = q.toNat := by
  subst h; rw [Parcel.quad, toNat_ext]; omega

theorem cssType_fields (h3 : Parcel.funct3 c = f3) (hq : Parcel.quad c = 2#2) :
    cssType f3 (Parcel.imm6 c) (Parcel.lo5 c) = c := by
  subst h3
  have hq : c.toNat % 4 = 2 := quad_toNat hq
  apply BitVec.eq_of_toNat_eq
  simp only [cssType_toNat, Parcel.funct3, Parcel.imm6, Parcel.lo5, toNat_ext]
  omega

theorem ciwType_fields (h3 : Parcel.funct3 c = 0#3) (hq : Parcel.quad c = 0#2) :
    ciwType (Parcel.imm8 c) (Parcel.rd' c) = c := by
  rw [← BitVec.toNat_inj, Parcel.funct3, toNat_ext, BitVec.toNat_ofNat] at h3
  have hq : c.toNat % 4 = 0 := quad_toNat hq
  apply BitVec.eq_of_toNat_eq
  simp only [ciwType_toNat, Parcel.imm8, Parcel.rd', toNat_ext]
  omega

theorem clType_fields (h3 : Parcel.funct3 c = f3) (hq : Parcel.quad c = 0#2) :
    clType f3 (Parcel.hi3 c) (Parcel.rs1' c) (Parcel.mid2 c) (Parcel.rd' c) = c := by
  subst h3
  have hq : c.toNat % 4 = 0 := quad_toNat hq
  apply BitVec.eq_of_toNat_eq
  simp only [clType_toNat, Parcel.funct3, Parcel.hi3, Parcel.rs1', Parcel.mid2, Parcel.rd', toNat_ext]
  omega

theorem cbType_fields (h3 : Parcel.funct3 c = f3) (hq : Parcel.quad c = 1#2) :
    cbType f3 (Parcel.hi3 c) (Parcel.rs1' c) (Parcel.lo5 c) = c := by
  subst h3
  have hq : c.toNat % 4 = 1 := quad_toNat hq
  apply BitVec.eq_of_toNat_eq
  simp only [cbType_toNat, Parcel.funct3, Parcel.hi3, Parcel.rs1', Parcel.lo5, toNat_ext]
  omega

theorem cjType_fields (h3 : Parcel.funct3 c = f3) (hq : Parcel.quad c = 1#2) : cjType f3 (Parcel.imm11 c) = c := by
  subst h3
  have hq : c.toNat % 4 = 1 := quad_toNat hq
  apply BitVec.eq_of_toNat_eq
  simp only [cjType_toNat, Parcel.funct3, Parcel.imm11, toNat_ext]
  omega

theorem cbAluType_fields {f2 : BitVec 2} (h2 : Parcel.f2 c = f2) (h3 : Parcel.funct3 c = 4#3)
    (hq : Parcel.quad c = 1#2) : cbAluType (Parcel.b12 c) f2 (Parcel.rs1' c) (Parcel.lo5 c) = c := by
  subst h2
  rw [← BitVec.toNat_inj, Parcel.funct3, toNat_ext, BitVec.toNat_ofNat] at h3
  have hq : c.toNat % 4 = 1 := quad_toNat hq
  apply BitVec.eq_of_toNat_eq
  simp only [cbAluType_toNat, Parcel.b12, Parcel.f2, Parcel.rs1', Parcel.lo5, toNat_ext]
  omega

theorem caType_fields {b : BitVec 1} {mid : BitVec 2} (hb : Parcel.b12 c = b) (hm : Parcel.mid2 c = mid)
    (h2 : Parcel.f2 c = 3#2) (h3 : Parcel.funct3 c = 4#3) (hq : Parcel.quad c = 1#2) :
    caType b (Parcel.rs1' c) mid (Parcel.rd' c) = c := by
  subst hb hm
  rw [← BitVec.toNat_inj, Parcel.f2, toNat_ext, BitVec.toNat_ofNat] at h2
  rw [← BitVec.toNat_inj, Parcel.funct3, toNat_ext, BitVec.toNat_ofNat] at h3
  have hq : c.toNat % 4 = 1 := quad_toNat hq
  apply BitVec.eq_of_toNat_eq
  simp only [caType_toNat, Parcel.b12, Parcel.rs1', Parcel.mid2, Parcel.rd', toNat_ext]
  omega

end Parcels

/-! ### Strict answers -/

/-- An answer of the decoder to a word is strict: it is an error, or an instruction of the XLEN-`x` machine whose encoding
is the word (R232, R234). -/
def Strict (x : Xlen) (iw : InstWord) (r : Except Reject Instr) : Prop :=
  ∀ i, r = .ok i → encode i = iw ∧ wellFormed x i = true

section

variable {x : Xlen} {iw : InstWord} {a b : Except Reject Instr} {i : Instr} {p : Prop} [Decidable p]

theorem Strict.error {e : Reject} : Strict x iw (.error e) := fun _ h => nomatch h

theorem Strict.ok (he : encode i = iw) (hw : wellFormed x i = true) : Strict x iw (.ok i) := by
  intro j hj; cases hj; exact ⟨he, hw⟩

/-- One row of a decoding chain. -/
theorem Strict.row (ha : p → Strict x iw a) (hb : ¬ p → Strict x iw b) : Strict x iw (if p then a else b) := by
  split
  · exact ha ‹_›
  · exact hb ‹_›

/-- One row of a decoding chain whose rows exclude each other. -/
theorem Strict.ite (ha : p → Strict x iw a) (hb : Strict x iw b) : Strict x iw (if p then a else b) :=
  .row ha fun _ => hb

/-- An answer to a 32-bit word: the row's encoding, filled from the fields of the word. -/
theorem Strict.full {v w : BitVec 32} (hv : v = w) (he : encode i = .full v) (hw : wellFormed x i = true) :
    Strict x (.full w) (.ok i) := .ok (hv ▸ he) hw

/-- An answer to a parcel: the row's encoding, filled from the fields of the parcel. -/
theorem Strict.half {v c : BitVec 16} (hv : v = c) (he : encode i = .half v) (hw : wellFormed x i = true) :
    Strict x (.half c) (.ok i) := .ok (hv ▸ he) hw

end

/-! ### The 32-bit map (R229 to R232) -/

section Words

variable {x : Xlen} {w : BitVec 32}

theorem decodeOpImm_strict (ho : Field.op w = 0b0010011#7) : Strict x (.full w) (decodeOpImm x w) := by
  unfold decodeOpImm
  iterate 6 refine .ite (fun h3 => .full (iType_fields h3 ho) rfl rfl) ?_
  refine .row (fun _ => .error) fun hs => ?_
  have amount : (decide (x = .rv64) || !(Field.shamt w).getLsbD 5) = true := by
    cases x
    · simpa using hs
    · rfl
  iterate 3 refine .ite (fun ⟨h3, h6⟩ => .full (shiftType_fields h6 h3 ho) rfl amount) ?_
  exact .error

theorem decodeOpImm32_strict (ho : Field.op w = 0b0011011#7) : Strict .rv64 (.full w) (decodeOpImm32 w) := by
  unfold decodeOpImm32
  refine .ite (fun h3 => .full (iType_fields h3 ho) rfl rfl) ?_
  iterate 3 refine .ite (fun ⟨h3, h7⟩ => .full (rType_fields h7 h3 ho) rfl rfl) ?_
  exact .error

theorem decodeOp_strict (ho : Field.op w = 0b0110011#7) : Strict x (.full w) (decodeOp w) := by
  unfold decodeOp
  iterate 18 refine .ite (fun ⟨h7, h3⟩ => .full (rType_fields h7 h3 ho) rfl rfl) ?_
  exact .error

theorem decodeOp32_strict (ho : Field.op w = 0b0111011#7) : Strict .rv64 (.full w) (decodeOp32 w) := by
  unfold decodeOp32
  iterate 10 refine .ite (fun ⟨h7, h3⟩ => .full (rType_fields h7 h3 ho) rfl rfl) ?_
  exact .error

theorem decodeLoad_strict (ho : Field.op w = 0b0000011#7) : Strict x (.full w) (decodeLoad x w) := by
  unfold decodeLoad
  have both : ∀ {f3}, Field.funct3 w = f3 → iType (Field.imm12 w) (Field.rs1 w) f3 (Field.rd w) 0b0000011#7 = w :=
    fun h3 => iType_fields h3 ho
  iterate 3 refine .ite (fun h3 => .full (both h3) rfl rfl) ?_
  refine .ite (fun ⟨h3, hx⟩ => .full (both h3) rfl (by subst hx; rfl)) ?_
  iterate 2 refine .ite (fun h3 => .full (both h3) rfl rfl) ?_
  refine .ite (fun ⟨h3, hx⟩ => .full (both h3) rfl (by subst hx; rfl)) ?_
  exact .error

theorem decodeStore_strict (ho : Field.op w = 0b0100011#7) : Strict x (.full w) (decodeStore x w) := by
  unfold decodeStore
  iterate 3 refine .ite (fun h3 => .full (sType_fields h3 ho) rfl rfl) ?_
  refine .ite (fun ⟨h3, hx⟩ => .full (sType_fields h3 ho) rfl (by subst hx; rfl)) ?_
  exact .error

theorem decodeBranch_strict (ho : Field.op w = 0b1100011#7) : Strict x (.full w) (decodeBranch w) := by
  unfold decodeBranch
  iterate 6 refine .ite (fun h3 => .full (bType_fields h3 ho) rfl rfl) ?_
  exact .error

theorem decodeAmoW_strict (h3 : Field.funct3 w = 2#3) (ho : Field.op w = 0b0101111#7) :
    Strict x (.full w) (decodeAmoW w) := by
  unfold decodeAmoW
  refine .ite (fun ⟨h5, h2⟩ => .full (h2 ▸ amoType_fields h5 h3 ho) rfl rfl) ?_
  iterate 10 refine .ite (fun h5 => .full (amoType_fields h5 h3 ho) rfl rfl) ?_
  exact .error

theorem decodeAmoD_strict (h3 : Field.funct3 w = 3#3) (ho : Field.op w = 0b0101111#7) :
    Strict .rv64 (.full w) (decodeAmoD w) := by
  unfold decodeAmoD
  refine .ite (fun ⟨h5, h2⟩ => .full (h2 ▸ amoType_fields h5 h3 ho) rfl rfl) ?_
  iterate 10 refine .ite (fun h5 => .full (amoType_fields h5 h3 ho) rfl rfl) ?_
  exact .error

theorem decodeSystem_strict (ho : Field.op w = 0b1110011#7) : Strict x (.full w) (decodeSystem w) := by
  unfold decodeSystem
  iterate 6 refine .ite (fun h3 => .full (iType_fields h3 ho) rfl rfl) ?_
  iterate 5 refine .ite (fun hw => .full hw.symm rfl rfl) ?_
  refine .ite (fun ⟨h7, h3, hd⟩ => .full (hd ▸ rType_fields h7 h3 ho) rfl rfl) ?_
  exact .error

theorem decodeMiscMem_strict (ho : Field.op w = 0b0001111#7) : Strict x (.full w) (decodeMiscMem w) := by
  unfold decodeMiscMem
  refine .ite (fun h3 => .full (fenceType_fields h3 ho) rfl rfl) ?_
  refine .ite (fun h3 => .full (iType_fields h3 ho) rfl rfl) ?_
  exact .error

theorem decode32_strict : Strict x (.full w) (decode32 x w) := by
  unfold decode32
  refine .ite (fun ho => .full (uType_fields ho) rfl rfl) ?_
  refine .ite (fun ho => .full (uType_fields ho) rfl rfl) ?_
  refine .ite decodeOpImm_strict ?_
  refine .ite decodeOp_strict ?_
  refine .ite (fun ⟨ho, hx⟩ => hx ▸ decodeOpImm32_strict ho) ?_
  refine .ite (fun ⟨ho, hx⟩ => hx ▸ decodeOp32_strict ho) ?_
  refine .ite (fun ho => .full ((scatterJ_gather _).symm ▸ uType_fields ho) rfl rfl) ?_
  refine .ite (fun ho => .ite (fun h3 => .full (iType_fields h3 ho) rfl rfl) .error) ?_
  refine .ite decodeBranch_strict ?_
  refine .ite decodeLoad_strict ?_
  refine .ite decodeStore_strict ?_
  refine .ite (fun ho => .ite (fun h3 => decodeAmoW_strict h3 ho) <|
    .ite (fun ⟨h3, hx⟩ => hx ▸ decodeAmoD_strict h3 ho) .error) ?_
  refine .ite decodeSystem_strict ?_
  exact .ite decodeMiscMem_strict .error

end Words

/-! ### The compressed map (R242, R244) -/

theorem eq_one_of_ne_zero {b : BitVec 1} (h : b ≠ 0#1) : b = 1#1 := by
  bv_omega

theorem eq_three_of_ne {f : BitVec 2} (h0 : f ≠ 0#2) (h1 : f ≠ 1#2) (h2 : f ≠ 2#2) : f = 3#2 := by
  bv_omega

theorem eq_seven_of_ne {f : BitVec 3} (h0 : f ≠ 0#3) (h1 : f ≠ 1#3) (h2 : f ≠ 2#3) (h3 : f ≠ 3#3) (h4 : f ≠ 4#3)
    (h5 : f ≠ 5#3) (h6 : f ≠ 6#3) : f = 7#3 := by
  bv_omega

theorem gatherSpn_ne_zero {f : BitVec 8} (h : f ≠ 0#8) : Imm.gatherSpn f ≠ 0#8 := by
  rwa [Ne, ← scatterSpn_eq_zero, scatterSpn_gather]

theorem gather16_ne_zero {b : BitVec 1} {lo : BitVec 5} (h : Imm.gatherI b lo ≠ 0#6) : Imm.gather16 b lo ≠ 0#6 := by
  rwa [Ne, ← scatter16_eq_zero, scatter16B_gather, scatter16Lo_gather]

/-- A shift amount of the CI format that is no reserved code point exists on the width (R244 item 8). -/
theorem gatherI_amount {x : Xlen} {b : BitVec 1} (lo : BitVec 5) (h : ¬ (x = .rv32 ∧ b = 1#1)) :
    (decide (x = .rv64) || !(Imm.gatherI b lo).getLsbD 5) = true := by
  cases x
  · have top : (Imm.gatherI b lo)[5] ≠ true := fun ht => by
      rw [← scatterIB_eq_one, scatterIB_gather] at ht
      exact h ⟨rfl, ht⟩
    simpa using top
  · rfl

section Parcels

variable {x : Xlen} {c : BitVec 16}

theorem decodeQ0_strict (hq : Parcel.quad c = 0#2) : Strict x (.half c) (decodeQ0 x c) := by
  unfold decodeQ0
  refine .ite (fun h3 => .row (fun _ => .error) fun hz => ?_) ?_
  · exact .half (by simp [ciwType_fields h3 hq]) rfl (decide_eq_true (gatherSpn_ne_zero hz))
  iterate 2 refine .ite (fun h3 => .half (by simp [clType_fields h3 hq]) rfl rfl) ?_
  refine .ite (fun h3 => ?_) ?_
  · cases x <;> exact .half (by simp [clType_fields h3 hq]) rfl rfl
  iterate 2 refine .ite (fun h3 => .half (by simp [clType_fields h3 hq]) rfl rfl) ?_
  refine .ite (fun h3 => ?_) .error
  cases x <;> exact .half (by simp [clType_fields h3 hq]) rfl rfl

theorem decodeQ1Alu_strict (hq : Parcel.quad c = 1#2) (h3 : Parcel.funct3 c = 4#3) :
    Strict x (.half c) (decodeQ1Alu x c) := by
  unfold decodeQ1Alu
  refine .row (fun h2 => .row (fun _ => .error) fun hs => ?_) fun f0 => ?_
  · exact .half (by simp [cbAluType_fields h2 h3 hq]) rfl (gatherI_amount _ hs)
  refine .row (fun h2 => .row (fun _ => .error) fun hs => ?_) fun f1 => ?_
  · exact .half (by simp [cbAluType_fields h2 h3 hq]) rfl (gatherI_amount _ hs)
  refine .row (fun h2 => .half (by simp [cbAluType_fields h2 h3 hq]) rfl rfl) fun f2 => ?_
  have h2 := eq_three_of_ne f0 f1 f2
  refine .row (fun hb => ?_) fun hb => ?_
  · refine .row (fun hm => .half (caType_fields hb hm h2 h3 hq) rfl rfl) fun m0 => ?_
    refine .row (fun hm => .half (caType_fields hb hm h2 h3 hq) rfl rfl) fun m1 => ?_
    refine .row (fun hm => .half (caType_fields hb hm h2 h3 hq) rfl rfl) fun m2 => ?_
    exact .half (caType_fields hb (eq_three_of_ne m0 m1 m2) h2 h3 hq) rfl rfl
  · have hb := eq_one_of_ne_zero hb
    iterate 2 refine .ite (fun ⟨hm, hx⟩ => .half (caType_fields hb hm h2 h3 hq) rfl (by subst hx; rfl)) ?_
    exact .error

theorem decodeQ1_strict (hq : Parcel.quad c = 1#2) : Strict x (.half c) (decodeQ1 x c) := by
  unfold decodeQ1
  refine .row (fun h3 => .row (fun hd => ?_) fun hd => ?_) fun n0 => ?_
  · exact .half (by simp [← hd, ciType_fields h3 hq]) rfl rfl
  · exact .half (by simp [ciType_fields h3 hq]) rfl (decide_eq_true hd)
  refine .row (fun h3 => ?_) fun n1 => ?_
  · cases x
    · exact .half (by simp [cjType_fields h3 hq]) rfl rfl
    · exact .row (fun _ => .error) fun hd => .half (by simp [ciType_fields h3 hq]) rfl (decide_eq_true hd)
  refine .row (fun h3 => .half (by simp [ciType_fields h3 hq]) rfl rfl) fun n2 => ?_
  refine .row (fun h3 => .row (fun _ => .error) fun hz => .row (fun hd => ?_) fun hd => ?_) fun n3 => ?_
  · exact .half (by simp [← hd, ciType_fields h3 hq]) rfl (decide_eq_true (gather16_ne_zero hz))
  · have fields : (decide (Parcel.rd c ≠ 2#5) && decide (Imm.gatherI (Parcel.b12 c) (Parcel.lo5 c) ≠ 0#6)) = true :=
      Bool.and_eq_true_iff.2 ⟨decide_eq_true hd, decide_eq_true hz⟩
    exact .half (by simp [ciType_fields h3 hq]) rfl fields
  refine .row (decodeQ1Alu_strict hq) fun n4 => ?_
  refine .row (fun h3 => .half (by simp [cjType_fields h3 hq]) rfl rfl) fun n5 => ?_
  refine .row (fun h3 => .half (by simp [cbType_fields h3 hq]) rfl rfl) fun n6 => ?_
  have h3 := eq_seven_of_ne n0 n1 n2 n3 n4 n5 n6
  exact .half (by simp [cbType_fields h3 hq]) rfl rfl

theorem decodeQ2Cr_strict (hq : Parcel.quad c = 2#2) (h3 : Parcel.funct3 c = 4#3) :
    Strict x (.half c) (decodeQ2Cr c) := by
  have reg : ∀ {b}, Parcel.b12 c = b → ciType 4#3 b (Parcel.rd c) (Parcel.lo5 c) 2#2 = c :=
    fun hb => hb ▸ ciType_fields h3 hq
  unfold decodeQ2Cr
  refine .row (fun hb => .row (fun hl => .row (fun _ => .error) fun hd => ?_) fun hl => ?_) fun hb => ?_
  · exact .half (hl ▸ reg hb) rfl (decide_eq_true hd)
  · exact .half (reg hb) rfl (decide_eq_true hl)
  have hb := eq_one_of_ne_zero hb
  refine .row (fun hl => .row (fun hd => ?_) fun hd => ?_) fun hl => ?_
  · exact .half (v := ciType 4#3 1#1 0#5 0#5 2#2) (by simpa only [hd, hl] using reg hb) rfl rfl
  · exact .half (hl ▸ reg hb) rfl (decide_eq_true hd)
  · exact .half (reg hb) rfl (decide_eq_true hl)

theorem decodeQ2_strict (hq : Parcel.quad c = 2#2) : Strict x (.half c) (decodeQ2 x c) := by
  unfold decodeQ2
  refine .row (fun h3 => .row (fun _ => .error) fun hs => ?_) fun n0 => ?_
  · exact .half (by simp [ciType_fields h3 hq]) rfl (gatherI_amount _ hs)
  refine .row (fun h3 => .half (by simp [ciType_fields h3 hq]) rfl rfl) fun n1 => ?_
  refine .row (fun h3 => .row (fun _ => .error) fun hd => ?_) fun n2 => ?_
  · exact .half (by simp [ciType_fields h3 hq]) rfl (decide_eq_true hd)
  refine .row (fun h3 => ?_) fun n3 => ?_
  · cases x
    · exact .half (by simp [ciType_fields h3 hq]) rfl rfl
    · exact .row (fun _ => .error) fun hd => .half (by simp [ciType_fields h3 hq]) rfl (decide_eq_true hd)
  refine .row (decodeQ2Cr_strict hq) fun n4 => ?_
  refine .row (fun h3 => .half (by simp [cssType_fields h3 hq]) rfl rfl) fun n5 => ?_
  refine .row (fun h3 => .half (by simp [cssType_fields h3 hq]) rfl rfl) fun n6 => ?_
  have h3 := eq_seven_of_ne n0 n1 n2 n3 n4 n5 n6
  cases x <;> exact .half (by simp [cssType_fields h3 hq]) rfl rfl

theorem decode16_strict : Strict x (.half c) (decode16 x c) := by
  unfold decode16
  exact .ite decodeQ0_strict <| .ite decodeQ1_strict <| .ite decodeQ2_strict .error

end Parcels

/-! ### Both directions (R232, R234) -/

theorem decodeInst_strict (x : Xlen) (c : Bool) : ∀ iw : InstWord, Strict x iw (decodeInst x c iw)
  | .half _ => .ite (fun _ => decode16_strict) .error
  | .full _ => decode32_strict

/-- The encoding of an instruction has its row's length (R221). -/
theorem encode_ilen (i : Instr) : (encode i).ilen = if i.compressed = true then 2 else 4 := by
  cases i <;> rfl

/-- Settles O2, from the round trip of each constructor. -/
theorem decodeOfEncode : Obligations.DecodeOfEncode := by
  unfold Obligations.DecodeOfEncode
  exact fun x i => Laws.RoundTrip.decodeInst_encode i x

/-- Settles O3: every row of the decoder is strict, and without the C extension it answers no instruction of 2 bytes. -/
theorem encodeOfDecode : Obligations.EncodeOfDecode := by
  unfold Obligations.EncodeOfDecode
  intro x c iw i h
  obtain ⟨he, hw⟩ := decodeInst_strict x c iw i h
  refine ⟨he, hw, fun hc => ?_⟩
  have two : (encode i).ilen = 2 := by rw [encode_ilen, if_pos hc]
  rcases Machine.decodeInst_ilen h with h4 | ⟨-, hc⟩
  · rw [two] at h4; cases h4
  · exact hc

/-! ### Reserved code points (R244) and the spec's words -/

section

variable {x : Xlen} {c : BitVec 16}

theorem decode16_quad0 (h : Parcel.quad c = 0#2) : decode16 x c = decodeQ0 x c := if_pos h

theorem decode16_quad1 (h : Parcel.quad c = 1#2) : decode16 x c = decodeQ1 x c := by simp [decode16, h]

theorem decode16_quad2 (h : Parcel.quad c = 2#2) : decode16 x c = decodeQ2 x c := by simp [decode16, h]

theorem decodeQ1_alu (h : Parcel.funct3 c = 4#3) : decodeQ1 x c = decodeQ1Alu x c := by simp [decodeQ1, h]

theorem decodeQ2_cr (h : Parcel.funct3 c = 4#3) : decodeQ2 x c = decodeQ2Cr c := by simp [decodeQ2, h]

end

/-- Settles O5: each item fixes the path through the chains down to the reserved row. -/
theorem reservedParcelsAreIllegal : Obligations.ReservedParcelsAreIllegal := by
  unfold Obligations.ReservedParcelsAreIllegal
  refine ⟨fun x c h => ?_, fun _ _ => rfl⟩
  show decode16 x c = _
  rcases h with ⟨hq, h3, h8⟩ | ⟨hq, h3⟩ | ⟨rfl, hq, h3, hd⟩ | ⟨hq, h3, hb, hl⟩ | ⟨hq, h3, h2, hb, hm⟩
    | ⟨rfl, hq, h3, h2, hb, hm⟩ | ⟨rfl, hq, h3, h2, hb⟩ | ⟨rfl, hq, h3, hb⟩ | ⟨hq, h3, hd⟩ | ⟨rfl, hq, h3, hd⟩
    | ⟨hq, h3, hb, hd, hl⟩
  · rw [decode16_quad0 hq]; simp [decodeQ0, h3, h8]
  · rw [decode16_quad0 hq]; simp [decodeQ0, h3]
  · rw [decode16_quad1 hq]; simp [decodeQ1, h3, hd]
  · rw [decode16_quad1 hq]; simp [decodeQ1, h3, hb, hl, Imm.gatherI]
  · rw [decode16_quad1 hq, decodeQ1_alu h3]; rcases hm with hm | hm <;> simp [decodeQ1Alu, h2, hb, hm]
  · rw [decode16_quad1 hq, decodeQ1_alu h3]; simp [decodeQ1Alu, h2, hb]
  · rw [decode16_quad1 hq, decodeQ1_alu h3]; rcases h2 with h2 | h2 <;> simp [decodeQ1Alu, h2, hb]
  · rw [decode16_quad2 hq]; simp [decodeQ2, h3, hb]
  · rw [decode16_quad2 hq]; simp [decodeQ2, h3, hd]
  · rw [decode16_quad2 hq]; simp [decodeQ2, h3, hd]
  · rw [decode16_quad2 hq, decodeQ2_cr h3]; simp [decodeQ2Cr, hb, hd, hl]

/-- Settles O1: the decoder computes each word. -/
theorem specWordsDecode : Obligations.SpecWordsDecode := by
  unfold Obligations.SpecWordsDecode
  decide

end Sys2Proof
end

section
/-! SUPPORT. The step that runs an instruction (spec/30_encoding.md R220, R221, R622): every instruction answers a next
state, and an untranslated fetch gives the word that stands in memory at the pc. -/

namespace Sys2Proof.Machine

open Sys2Proof

/-! ### Every instruction answers a next state -/

/-- The outcome is a next state. -/
def Answers (r : Result) : Prop := ∃ t, r = .next t

theorem Answers.next (t : State) : Answers (.next t) := ⟨t, rfl⟩

theorem Answers.raise (s : State) (e : Exc) (tval : Word) : Answers (s.raise e tval) := .next _

theorem Answers.ite {p : Prop} [Decidable p] {a b : Result} (ha : Answers a) (hb : Answers b) :
    Answers (if p then a else b) := by
  split
  · exact ha
  · exact hb

theorem jumpTo_answers (n : Nat) (rd : Reg) (t : Word) (s : State) : Answers (jumpTo n rd t s) :=
  .ite (.raise ..) (.next _)

theorem branchIf_answers (n : Nat) (taken : Bool) (off : Word) (s : State) : Answers (branchIf n taken off s) :=
  .ite (.ite (.raise ..) (.next _)) (.next _)

theorem privileged_answers (least : Priv) (i : Instr) (t s : State) : Answers (privileged least i (.next t) s) :=
  .ite (.raise ..) (.next _)

theorem loadOp_answers (ilen n : Nat) (ext : Word → Word) (rd rs1 : Reg) (off : Word) (s : State) :
    Answers (loadOp ilen n ext rd rs1 off s) := by
  refine .ite (.raise ..) ?_
  split
  · exact .raise ..
  · exact .next _

theorem storeOp_answers (ilen n : Nat) (rs1 rs2 : Reg) (off : Word) (s : State) :
    Answers (storeOp ilen n rs1 rs2 off s) := by
  refine .ite (.raise ..) ?_
  split
  · exact .raise ..
  · exact .next _

theorem lrOp_answers (g : Granule) (rd rs1 : Reg) (s : State) : Answers (lrOp g rd rs1 s) := by
  refine .ite (.raise ..) ?_
  split
  · exact .raise ..
  · exact .next _

theorem scOp_answers (g : Granule) (rd rs1 rs2 : Reg) (s : State) : Answers (scOp g rd rs1 rs2 s) := by
  refine .ite (.raise ..) (.ite ?_ (.next _))
  split
  · exact .raise ..
  · exact .next _

theorem amoOp_answers (g : Granule) (f : {w : Nat} → BitVec w → BitVec w → BitVec w) (rd rs1 rs2 : Reg) (s : State) :
    Answers (amoOp g f rd rs1 rs2 s) := by
  refine .ite (.raise ..) ?_
  split
  · exact .raise ..
  · exact .next _

theorem csrOp_answers (i : Instr) (rd : Reg) (csr : CsrIndex) (writes : Bool) (new : Word → Word) (s : State) :
    Answers (csrOp i rd csr writes new s) := by
  unfold csrOp
  split
  · exact .raise ..
  · exact .next _

theorem exec_answers (i : Instr) (s : State) : Answers (exec i s) := by
  cases hs : i.shape
  case compute => obtain ⟨v, h⟩ := exec_compute hs s; exact h ▸ .next _
  case jump => obtain ⟨t, -, h⟩ := exec_jump hs s; exact h ▸ jumpTo_answers ..
  case branch => obtain ⟨taken, off, -, h⟩ := exec_branch hs s; exact h ▸ branchIf_answers ..
  case load => obtain ⟨n, ext, rs1, off, -, -, h⟩ := exec_load hs s; exact h ▸ loadOp_answers ..
  case store => obtain ⟨n, rs1, rs2, off, -, -, -, h⟩ := exec_store hs s; exact h ▸ storeOp_answers ..
  case lr => obtain ⟨g, rs1, -, h⟩ := exec_lr hs s; exact h ▸ lrOp_answers ..
  case sc => obtain ⟨g, rs1, rs2, -, h⟩ := exec_sc hs s; exact h ▸ scOp_answers ..
  case amo => obtain ⟨g, f, rs1, rs2, -, h⟩ := exec_amo hs s; exact h ▸ amoOp_answers ..
  case csr => obtain ⟨csr, writes, new, -, h⟩ := exec_csr hs s; exact h ▸ csrOp_answers ..
  case idle => rcases exec_idle hs s with h | ⟨-, -, h⟩ <;> exact h ▸ .next _
  case call => obtain ⟨e, tval, h⟩ := exec_call hs s; exact ⟨_, h⟩
  case noFpu => exact ⟨_, exec_noFpu hs s⟩
  case tlbFence => cases i <;> first | exact Shape.noConfusion hs | exact privileged_answers ..
  case ret => cases i <;> first | exact Shape.noConfusion hs | exact privileged_answers ..

/-! ### The fetch of an untranslated hart -/

/-- The value of a parcel is its two bytes, the first the low one (R150). -/
theorem parcelAt_pair (s : State) (a b : Nat) : s.parcelAt [a, b] = parcelOf (s.mem.read a) (s.mem.read b) := by
  have two : [a, b].length ≤ 8 := by simp
  have low := (s.mem.read a).isLt
  have high := (s.mem.read b).isLt
  apply BitVec.eq_of_toNat_eq
  rw [State.parcelAt, BitVec.toNat_setWidth, Memory.readLE_toNat s.mem _ two, parcelOf, toNat_app]
  simp only [leNat]
  omega

theorem fetch_half {s : State} {pas : List Nat} (h0 : s.access s.pc 2 .fetch = .ok pas)
    (hl : (s.parcelAt pas).extractLsb' 0 2 ≠ 3#2) :
    s.fetch = (s.afterAccess s.pc 2 .fetch, .ok (.half (s.parcelAt pas))) := by
  unfold State.fetch
  rw [h0]
  exact if_neg hl

theorem fetch_full {s : State} {pas0 pas1 : List Nat} (h0 : s.access s.pc 2 .fetch = .ok pas0)
    (hl : (s.parcelAt pas0).extractLsb' 0 2 = 3#2)
    (h1 : (s.afterAccess s.pc 2 .fetch).access s.pc2 2 .fetch = .ok pas1) :
    s.fetch = ((s.afterAccess s.pc 2 .fetch).afterAccess s.pc2 2 .fetch,
      .ok (.full (s.parcelAt pas1 ++ s.parcelAt pas0))) := by
  unfold State.fetch
  rw [h0]
  dsimp only
  rw [if_pos hl, h1]

/-- Two bytes that are one word are a parcel whose low two bits are not 11 (R221). -/
theorem takeWord_pair {b0 b1 : Byte} {iw : InstWord} (h : takeWord [b0, b1] = .ok (iw, [])) :
    (parcelOf b0 b1).extractLsb' 0 2 ≠ 3#2 ∧ iw = .half (parcelOf b0 b1) := by
  unfold takeWord at h
  dsimp only at h
  split at h
  · cases h
  · cases h; exact ⟨‹_›, rfl⟩

/-- Four bytes that are one word are two parcels, the low two bits of the first being 11 (R221). -/
theorem takeWord_quad {b0 b1 b2 b3 : Byte} {iw : InstWord} (h : takeWord [b0, b1, b2, b3] = .ok (iw, [])) :
    (parcelOf b0 b1).extractLsb' 0 2 = 3#2 ∧ iw = .full (parcelOf b2 b3 ++ parcelOf b0 b1) := by
  unfold takeWord at h
  dsimp only at h
  split at h
  · cases h; exact ⟨‹_›, rfl⟩
  · cases h

/-- The address of the second parcel does not wrap where its bytes exist. -/
theorem pc2_toNat {s : State} (hp : s.params.paBits ≤ s.params.xlen.bits)
    (ha : accessible s.params (s.pc.toNat + 2) = true) : s.pc2.toNat = s.pc.toNat + 2 := by
  have hlt : s.pc.toNat + 2 < 2 ^ s.params.xlen.bits :=
    ((accessible_iff ..).1 ha).1.trans_le (Nat.pow_le_pow_right (by decide) hp)
  unfold State.pc2 State.npc
  cases hx : s.params.xlen <;> rw [hx] at hlt <;> simp only [Xlen.bits] at hlt <;>
    simp only [truncX, BitVec.toNat_setWidth, BitVec.toNat_add, BitVec.toNat_ofNat] <;> omega

/-- An untranslated fetch gives the word that the bytes at the pc are, and leaves the state alone (R162, R220). -/
theorem fetch_untranslated {s : State} {iw : InstWord} (ht : s.translating .fetch = false)
    (hp : s.params.paBits ≤ s.params.xlen.bits)
    (ha : ∀ k, k < iw.ilen → accessible s.params (s.pc.toNat + k) = true)
    (hw : takeWord ((addrRange s.pc.toNat iw.ilen).map s.mem.read) = .ok (iw, [])) : s.fetch = (s, .ok iw) := by
  have first : s.access s.pc 2 .fetch = .ok [s.pc.toNat, s.pc.toNat + 1] :=
    access_untranslated_ok ht s.pc 2 fun k hk => ha k (by cases iw <;> simp only [InstWord.ilen] <;> omega)
  cases iw with
  | half c =>
    obtain ⟨hl, hc⟩ := takeWord_pair hw
    rw [fetch_half first (by rwa [parcelAt_pair]), afterAccess_untranslated ht, parcelAt_pair, hc]
    rfl
  | full w =>
    obtain ⟨hl, hc⟩ := takeWord_quad hw
    have second : s.access s.pc2 2 .fetch = .ok [s.pc.toNat + 2, s.pc.toNat + 3] := by
      have hpc2 := pc2_toNat hp (ha 2 (by simp only [InstWord.ilen]; omega))
      rw [access_untranslated_ok ht s.pc2 2 fun k hk => by
        rw [hpc2, Nat.add_assoc]; exact ha (2 + k) (by simp only [InstWord.ilen]; omega), hpc2]
      rfl
    rw [fetch_full first (by rwa [parcelAt_pair]) (by rwa [afterAccess_untranslated ht]), afterAccess_untranslated ht,
      afterAccess_untranslated ht, parcelAt_pair, parcelAt_pair, hc]
    rfl

/-! ### The step -/

section Decoded

variable {s s1 : State} {iw : InstWord} {i : Instr} (hh : s.haltRequested = false) (hi : s.interruptPending = none)
  (hd : decodeInst s.params.xlen s.params.cEnabled iw = .ok i)
include hh hi hd

theorem step_decode_ok (hf : s.fetch = (s1, .ok iw)) : step s = s.settle (exec i s1.clearTrapped) := by
  unfold step State.fetchInstr
  rw [boundary_none hh hi, hf]
  dsimp only
  rw [hd]

/-- Where the fetch changed nothing, `settle` changes nothing: the trap of an instruction has kept its insertions alone. -/
theorem step_decode_ok_of_fetch_self (hf : s.fetch = (s, .ok iw)) : step s = exec i s.clearTrapped := by
  obtain ⟨t, ht⟩ := exec_answers i s.clearTrapped
  rw [step_decode_ok hh hi hd hf, ht]
  refine congrArg Host.Outcome.next ?_
  split
  · obtain ⟨-, -, -, -, -, fills⟩ := (exec_trapped rfl ht ‹_›).keeps
    exact congrArg (fun tlb => { t with tlb := tlb }) (keepFills_eq fills)
  · rfl

end Decoded

/-- Settles O6: a fetch changes the TLB alone, an untranslated one nothing, and the mark is set by a trap alone. -/
theorem stepRunsDecodedInstruction : Obligations.StepRunsDecodedInstruction := by
  unfold Obligations.StepRunsDecodedInstruction
  refine ⟨fun s iw i hh hi ht hp ha hw hd => ?_, fun s s1 iw i hh hi hf hd => ?_, fun i s t hs hx => ⟨?_, fun h => ?_⟩⟩
  · exact step_decode_ok_of_fetch_self hh hi hd (fetch_untranslated ht hp ha hw)
  · obtain ⟨t, ht⟩ := exec_answers i s1.clearTrapped
    refine ⟨?_, t, ht, ?_⟩
    · have hk := fetch_keeps s
      rwa [hf] at hk
    · rw [step_decode_ok hh hi hd hf, ht]; rfl
  · exact exec_trapped hs hx
  · obtain ⟨-, -, -, -, marked, -⟩ := h.keeps
    exact marked

end Sys2Proof.Machine
end

section
/-! SUPPORT. A compressed instruction and its base expansion (spec/30_encoding.md R233, R241, R243, spec/47_compressed.md
R540): the same operands, the same shared operation, and 2 for 4 in the next pc. -/

namespace Sys2Proof.Machine

open Sys2Proof

/-! ### The immediates (R224, R241) -/

section Immediates

variable {n m : Nat}

theorem signExtend_signExtend (i : BitVec n) (hm : n ≤ m) (h : m ≤ 64) :
    (i.signExtend m).signExtend 64 = i.signExtend 64 := by
  apply BitVec.eq_of_toInt_eq
  rw [BitVec.toInt_signExtend_of_le h, BitVec.toInt_signExtend_of_le hm, BitVec.toInt_signExtend_of_le (hm.trans h)]

/-- A sign extended before the implied low zero bits are put below it, or after. -/
theorem signExtend_append (i : BitVec n) (k : Nat) (hn : 0 < n) (hm : n ≤ m) (h : m + k ≤ 64) :
    (i.signExtend m ++ 0#k).signExtend 64 = (i ++ 0#k).signExtend 64 := by
  have n0 : ¬ (n == 0) = true := by simp; omega
  have m0 : ¬ (m == 0) = true := by simp; omega
  apply BitVec.eq_of_toInt_eq
  rw [BitVec.toInt_signExtend_of_le h, BitVec.toInt_signExtend_of_le (by omega), BitVec.toInt_append,
    BitVec.toInt_append, if_neg n0, if_neg m0, BitVec.toInt_signExtend_of_le hm]

/-- An unsigned immediate of fewer than 12 bits has no sign in 12. -/
theorem imm12_setWidth (u : BitVec n) (h : n < 12) : imm12 (u.setWidth 12) = u.setWidth 64 := by
  have positive : (u.setWidth 12).msb = false := by
    rw [BitVec.msb_setWidth, BitVec.getLsbD_of_ge u 11 (by omega), Bool.and_false]
  rw [imm12, BitVec.signExtend_eq_setWidth_of_msb_false positive, BitVec.setWidth_setWidth (by omega)]

end Immediates

theorem imm12_ci (i : BitVec 6) : imm12 (i.signExtend 12) = imm6 i := signExtend_signExtend i (by decide) (by decide)
theorem imm12_addi16sp (i : BitVec 6) : imm12 ((i ++ 0#4).signExtend 12) = immC16sp i :=
  signExtend_signExtend (i ++ 0#4) (by decide) (by decide)
theorem immU_cLui (i : BitVec 6) : immU (i.signExtend 20) = immCLui i :=
  signExtend_append i 12 (by decide) (by decide) (by decide)
theorem immJ_cj (i : BitVec 11) : immJ (i.signExtend 20) = immCJ i :=
  signExtend_append i 1 (by decide) (by decide) (by decide)
theorem immB_cb (i : BitVec 8) : immB (i.signExtend 12) = immCB i :=
  signExtend_append i 1 (by decide) (by decide) (by decide)
theorem imm12_addi4spn (u : BitVec 8) : imm12 ((u ++ 0#2).setWidth 12) = uimmC4spn u := imm12_setWidth _ (by decide)
theorem imm12_cw (u : BitVec 5) : imm12 ((u ++ 0#2).setWidth 12) = uimmCW u := imm12_setWidth _ (by decide)
theorem imm12_cd (u : BitVec 5) : imm12 ((u ++ 0#3).setWidth 12) = uimmCD u := imm12_setWidth _ (by decide)
theorem imm12_cwsp (u : BitVec 6) : imm12 ((u ++ 0#2).setWidth 12) = uimmCWsp u := imm12_setWidth _ (by decide)
theorem imm12_cdsp (u : BitVec 6) : imm12 ((u ++ 0#3).setWidth 12) = uimmCDsp u := imm12_setWidth _ (by decide)

/-- An addition to `x0` writes the other operand (R554, R576). -/
theorem truncX_add_zero (x : Xlen) (v : Word) : truncX x (atXlen x addOp 0#64 v) = truncX x v := by
  cases x <;> simp [atXlen, addOp, truncX]

/-- Equality of two registers at XLEN bits, as the branches test it (R393, R394). -/
theorem compare_eqBits (s : State) (r q : Reg) :
    s.compare eqBits r q = true ↔ uns s.params.xlen (s.reg r) = uns s.params.xlen (s.reg q) := by
  unfold State.compare
  cases s.params.xlen
  · rw [uns_rv32, uns_rv32, Int.natCast_inj, BitVec.toNat_inj]; exact beq_iff_eq
  · exact beq_iff_eq.trans (BitVec.toNat_inj.symm.trans Int.natCast_inj.symm)

/-! ### One operation at the two lengths -/

/-- `r` is the outcome of a compressed instruction whose expansion `j` leaves `t`: `t` itself after a trap, a jump and a
taken branch, and everywhere else `t` with the pc 2 instead of 4 bytes on. -/
def Follows (s : State) (j : Instr) (t : State) (r : Result) : Prop :=
  (r = .next t ∧ (Trapped s t ∨ j.shape = .jump ∨ BranchTaken s j))
  ∨ (j.shape ≠ .jump ∧ ¬ BranchTaken s j ∧ t.pc = s.npc 4 ∧ r = .next { t with pc := s.npc 2 })

theorem BranchTaken.shape {s : State} {j : Instr} (h : BranchTaken s j) : j.shape = .branch := by
  cases h <;> rfl

section Lengths

variable {s t : State} {j : Instr}

theorem Follows.trapped (h : Trapped s t) : Follows s j t (.next t) := .inl ⟨rfl, .inl h⟩

/-- Instructions that only go on to the next one, from a state with the pc of the first. -/
theorem Follows.advance {u : State} (hj : j.shape ≠ .jump) (hb : ¬ BranchTaken s j) (hp : u.params = s.params)
    (hpc : u.pc = s.pc) : Follows s j (u.advance 4) (.next (u.advance 2)) := by
  have npc : ∀ n, u.npc n = s.npc n := fun n => by unfold State.npc; rw [hp, hpc]
  refine .inr ⟨hj, hb, by rw [advance_pc, npc], congrArg Host.Outcome.next ?_⟩
  rw [← npc 2, ← advance_pc u 2]
  rfl

theorem Follows.advance_of_shape {u : State} (hj : j.shape = .compute ∨ j.shape = .load ∨ j.shape = .store)
    (hp : u.params = s.params) (hpc : u.pc = s.pc) : Follows s j (u.advance 4) (.next (u.advance 2)) := by
  refine .advance (fun h => ?_) (fun h => ?_) hp hpc
  · simp [h] at hj
  · simp [h.shape] at hj

theorem writeNext_follows {rd : Reg} {v w : Word} (hj : j.shape = .compute)
    (hv : truncX s.params.xlen v = truncX s.params.xlen w) (h : writeNext 4 rd v s = .next t) :
    Follows s j t (writeNext 2 rd w s) := by
  cases h
  rw [setReg_congr hv]
  exact .advance_of_shape (.inl hj) (setReg_params ..) (setReg_pc ..)

theorem loadOp_ok {ilen n : Nat} {ext : Word → Word} {rd rs1 : Reg} {off : Word} {pas : List Nat}
    (h : s.strictMisaligned (s.addr rs1 off) n = false) (ha : s.access (s.addr rs1 off) n .load = .ok pas) :
    loadOp ilen n ext rd rs1 off s =
      .next (((s.afterAccess (s.addr rs1 off) n .load).setReg rd (ext (s.mem.readLE pas))).advance ilen) := by
  unfold loadOp; rw [h, ha]; rfl

theorem storeOp_ok {ilen n : Nat} {rs1 rs2 : Reg} {off : Word} {pas : List Nat}
    (h : s.strictMisaligned (s.addr rs1 off) n = false) (ha : s.access (s.addr rs1 off) n .store = .ok pas) :
    storeOp ilen n rs1 rs2 off s =
      .next ((((s.afterAccess (s.addr rs1 off) n .store).storeAt pas (s.reg rs2)).clearResv).advance ilen) := by
  unfold storeOp; rw [h, ha]; rfl

theorem loadOp_follows {n : Nat} {ext : Word → Word} {rd rs1 : Reg} {off : Word} (hj : j.shape = .load)
    (h : loadOp 4 n ext rd rs1 off s = .next t) : Follows s j t (loadOp 2 n ext rd rs1 off s) := by
  cases hm : s.strictMisaligned (s.addr rs1 off) n with
  | true => rw [loadOp_misaligned hm] at h ⊢; cases h; exact .trapped (trapped_self ..)
  | false =>
    cases ha : s.access (s.addr rs1 off) n .load with
    | error e => rw [loadOp_error hm ha] at h ⊢; cases h; exact .trapped (trapped_afterAccess _ ha)
    | ok pas =>
      rw [loadOp_ok hm ha] at h ⊢
      cases h
      exact .advance_of_shape (.inr (.inl hj)) (setReg_params ..) (setReg_pc ..)

theorem storeOp_follows {n : Nat} {rs1 rs2 : Reg} {off : Word} (hj : j.shape = .store)
    (h : storeOp 4 n rs1 rs2 off s = .next t) : Follows s j t (storeOp 2 n rs1 rs2 off s) := by
  cases hm : s.strictMisaligned (s.addr rs1 off) n with
  | true => rw [storeOp_misaligned hm] at h ⊢; cases h; exact .trapped (trapped_self ..)
  | false =>
    cases ha : s.access (s.addr rs1 off) n .store with
    | error e => rw [storeOp_error hm ha] at h ⊢; cases h; exact .trapped (trapped_afterAccess _ ha)
    | ok pas =>
      rw [storeOp_ok hm ha] at h ⊢
      cases h
      exact .advance_of_shape (.inr (.inr hj)) rfl rfl

theorem branchIf_follows {taken : Bool} {off : Word} (hj : j.shape = .branch) (hb : taken = true ↔ BranchTaken s j)
    (h : branchIf 4 taken off s = .next t) : Follows s j t (branchIf 2 taken off s) := by
  cases taken with
  | true => exact .inl ⟨h, .inr (.inr (hb.1 rfl))⟩
  | false =>
    cases h
    exact .advance (by rw [hj]; decide) (fun hc => Bool.noConfusion (hb.2 hc)) rfl rfl

theorem beq_taken (s : State) (r q : Reg) (imm : BitVec 12) :
    s.compare eqBits r q = true ↔ BranchTaken s (.beq r q imm) :=
  (compare_eqBits s r q).trans ⟨.beq imm, fun h => by cases h with | beq _ h => exact h⟩

theorem bne_taken (s : State) (r q : Reg) (imm : BitVec 12) :
    (!s.compare eqBits r q) = true ↔ BranchTaken s (.bne r q imm) := by
  rw [Bool.not_eq_true', ← Bool.not_eq_true, compare_eqBits]
  exact ⟨.bne imm, fun h => by cases h with | bne _ h => exact h⟩

/-- A jump that links nowhere does not see its length. -/
theorem jumpTo_follows {target : Word} (hj : j.shape = .jump) (h : jumpTo 4 0#5 target s = .next t) :
    Follows s j t (jumpTo 2 0#5 target s) := .inl ⟨h, .inr (.inl hj)⟩

end Lengths

/-- Every compressed instruction that does not link, by its expansion (R540 to R583). -/
theorem exec_follows_expansion {i j : Instr} {s t : State} (hj : i.expansion = some j) (hJal : ∀ imm, i ≠ .cJal imm)
    (hJalr : ∀ r, i ≠ .cJalr r) (h : exec j s = .next t) : Follows s j t (exec i s) := by
  cases i
  case cJal imm => exact absurd rfl (hJal imm)
  case cJalr rs1 => exact absurd rfl (hJalr rs1)
  case cAddi4spn rd uimm => cases hj; rw [exec_addi, imm12_addi4spn] at h; exact writeNext_follows rfl rfl h
  case cLw rd rs1 uimm => cases hj; rw [exec_lw, imm12_cw] at h; exact loadOp_follows rfl h
  case cLd rd rs1 uimm => cases hj; rw [exec_ld, imm12_cd] at h; exact loadOp_follows rfl h
  case cSw rs1 rs2 uimm => cases hj; rw [exec_sw, imm12_cw] at h; exact storeOp_follows rfl h
  case cSd rs1 rs2 uimm => cases hj; rw [exec_sd, imm12_cd] at h; exact storeOp_follows rfl h
  case cNop imm => cases hj; cases h; exact .advance_of_shape (.inl rfl) rfl rfl
  case cAddi rd imm => cases hj; rw [exec_addi, imm12_ci] at h; exact writeNext_follows rfl rfl h
  case cAddiw rd imm => cases hj; rw [exec_addiw, imm12_ci] at h; exact writeNext_follows rfl rfl h
  case cLi rd imm => cases hj; rw [exec_addi, imm12_ci] at h; exact writeNext_follows rfl (truncX_add_zero ..) h
  case cAddi16sp imm => cases hj; rw [exec_addi, imm12_addi16sp] at h; exact writeNext_follows rfl rfl h
  case cLui rd imm => cases hj; rw [exec_lui, immU_cLui] at h; exact writeNext_follows rfl rfl h
  case cAndi rd imm => cases hj; rw [exec_andi, imm12_ci] at h; exact writeNext_follows rfl rfl h
  case cJ imm => cases hj; rw [exec_jal, immJ_cj] at h; exact jumpTo_follows rfl h
  case cBeqz rs1 imm => cases hj; rw [exec_beq, immB_cb] at h; exact branchIf_follows rfl (beq_taken ..) h
  case cBnez rs1 imm => cases hj; rw [exec_bne, immB_cb] at h; exact branchIf_follows rfl (bne_taken ..) h
  case cLwsp rd uimm => cases hj; rw [exec_lw, imm12_cwsp] at h; exact loadOp_follows rfl h
  case cLdsp rd uimm => cases hj; rw [exec_ld, imm12_cdsp] at h; exact loadOp_follows rfl h
  case cJr rs1 => cases hj; exact jumpTo_follows rfl h
  case cMv rd rs2 => cases hj; exact writeNext_follows rfl (truncX_add_zero ..) h
  case cEbreak => cases hj; cases h; exact .trapped (trapped_self ..)
  case cSwsp rs2 uimm => cases hj; rw [exec_sw, imm12_cwsp] at h; exact storeOp_follows rfl h
  case cSdsp rs2 uimm => cases hj; rw [exec_sd, imm12_cdsp] at h; exact storeOp_follows rfl h
  case cSrli | cSrai | cSlli | cSub | cXor | cOr | cAnd | cSubw | cAddw | cAdd =>
    cases hj; exact writeNext_follows rfl rfl h
  all_goals exact nomatch hj

/-- Settles O60: the operands are equal, and each shared operation uses its length in the next pc and the link alone. -/
theorem compressedActsAsItsExpansion : Obligations.CompressedActsAsItsExpansion := by
  unfold Obligations.CompressedActsAsItsExpansion
  exact fun i j s t => exec_follows_expansion

end Sys2Proof.Machine
end

section
/-! SUPPORT. The integer computational instructions (spec/40_integer.md R300 to R328): at either XLEN an operation is one
at `Xlen.bits` bits, and an immediate, a shift amount and a comparison are read as integers there. -/

namespace Sys2Proof.Machine

open Sys2Proof

/-! ### Both widths at once (R11) -/

/-- The low bits of a cell that holds an integer. -/
theorem ofInt_setWidth_bits (x : Xlen) (i : Int) : (BitVec.ofInt 64 i).setWidth x.bits = BitVec.ofInt x.bits i := by
  cases x
  · apply BitVec.eq_of_toNat_eq
    simp only [Xlen.bits, BitVec.toNat_setWidth, BitVec.toNat_ofInt]
    omega
  · exact BitVec.setWidth_eq _

theorem truncX_eq_setWidth (x : Xlen) (v : Word) : truncX x v = (v.setWidth x.bits).setWidth 64 := by
  cases x <;> simp [truncX, Xlen.bits]

theorem truncI_eq_ofInt (x : Xlen) (i : Int) : truncI x i = (BitVec.ofInt x.bits i).setWidth 64 := by
  rw [truncI, truncX_eq_setWidth, ofInt_setWidth_bits]

theorem uns_eq_toNat (x : Xlen) (v : Word) : uns x v = (v.setWidth x.bits).toNat := by
  cases x
  · exact uns_rv32 v
  · simp [uns, truncX, Xlen.bits]

theorem uns_truncX (x : Xlen) (v : Word) : uns x (truncX x v) = uns x v := by rw [uns, truncX_truncX, uns]

theorem sgn_eq_toInt (x : Xlen) (v : Word) : sgn x v = (v.setWidth x.bits).toInt := by
  cases x <;> simp [sgn, Xlen.bits]

theorem atXlen_eq_setWidth (x : Xlen) (f : {w : Nat} → BitVec w → BitVec w → BitVec w) (a b : Word) :
    atXlen x f a b = (f (a.setWidth x.bits) (b.setWidth x.bits)).setWidth 64 := by
  cases x
  · rfl
  · simp [atXlen, Xlen.bits]

section Operation

variable {x : Xlen} {f : {w : Nat} → BitVec w → BitVec w → BitVec w} {a b : Word} {i : Int}

/-- An operation at XLEN bits, from its result as an integer at that width. -/
theorem atXlen_of_ofInt (h : f (a.setWidth x.bits) (b.setWidth x.bits) = BitVec.ofInt x.bits i) :
    atXlen x f a b = truncI x i := by rw [truncI_eq_ofInt, ← h, atXlen_eq_setWidth]

/-- A `*W` operation, from its 32-bit result as an integer. -/
theorem atWord_of_ofInt (h : f (a.setWidth 32) (b.setWidth 32) = BitVec.ofInt 32 i) :
    truncX x (atWord f a b) = sext32I x i := by
  rw [sext32I_eq, ← h]; rfl

/-- A bitwise operation at XLEN bits is the operation on whole cells, as far as a register holds it. -/
theorem truncX_atXlen_bitwise (hf : ∀ a b : Word, (f a b).setWidth 32 = f (a.setWidth 32) (b.setWidth 32)) :
    truncX x (atXlen x f a b) = truncX x (f a (truncX x b)) := by
  have low : (truncX .rv32 b).setWidth 32 = b.setWidth 32 := by simp [truncX]
  cases x
  · rw [atXlen, ← low, ← hf]; exact truncX_truncX .rv32 _
  · rfl

end Operation

/-- A computational instruction ends in the state that holds its result (R13). -/
theorem writeNext_of_eq {s : State} {n : Nat} {rd : Reg} {v w : Word} (h : v = w) :
    writeNext n rd v s = .next (s.wrote n rd w) := h ▸ rfl

/-- What is written to a register is its value at XLEN bits (R12). -/
theorem writeNext_of_truncX {s : State} {n : Nat} {rd : Reg} {v w : Word} (h : truncX s.params.xlen v = w) :
    writeNext n rd v s = .next (s.wrote n rd w) := congrArg _ (wrote_congr (by rw [← h, truncX_truncX]))

/-- An immediate form whose operation is one on bits. -/
theorem immOp_bitwise {f : {w : Nat} → BitVec w → BitVec w → BitVec w}
    (hf : ∀ a b : Word, (f a b).setWidth 32 = f (a.setWidth 32) (b.setWidth 32)) (n : Nat) (rd rs1 : Reg) (imm : Word)
    (s : State) : immOp n f rd rs1 imm s = .next (s.wrote n rd (f (s.reg rs1) (truncX s.params.xlen imm))) :=
  congrArg _ (wrote_congr (truncX_atXlen_bitwise hf))

/-! ### Immediates: a cell that holds an integer as an operand -/

theorem addOp_ofInt {w : Nat} (a : BitVec w) (i : Int) : addOp a (BitVec.ofInt w i) = BitVec.ofInt w (a.toNat + i) := by
  rw [BitVec.ofInt_add]; simp [addOp]

theorem atXlen_addOp_ofInt (x : Xlen) (a : Word) (i : Int) :
    atXlen x addOp a (BitVec.ofInt 64 i) = truncI x (uns x a + i) :=
  atXlen_of_ofInt (by rw [ofInt_setWidth_bits, addOp_ofInt, uns_eq_toNat])

theorem atWord_addOp_ofInt (x : Xlen) (a : Word) (i : Int) :
    truncX x (atWord addOp a (BitVec.ofInt 64 i)) = sext32I x (uns32 a + i) :=
  atWord_of_ofInt ((congrArg (addOp _) (ofInt_setWidth_bits .rv32 i)).trans (addOp_ofInt ..))

/-- A sum of cells, at XLEN bits. -/
theorem truncX_add (x : Xlen) (a b : Word) : truncX x (a + b) = atXlen x addOp a b := by
  cases x
  · exact congrArg (BitVec.setWidth 64) (BitVec.setWidth_add a b (by decide))
  · rfl

/-- An immediate has at either XLEN the integer value it was sign-extended from (R224). -/
theorem sgn_imm12 (x : Xlen) (imm : BitVec 12) : sgn x (imm12 imm) = imm.toInt := by
  have low : (imm12 imm).setWidth x.bits = imm.signExtend x.bits := ofInt_setWidth_bits x imm.toInt
  rw [sgn_eq_toInt, low, BitVec.toInt_signExtend_of_le]
  cases x <;> decide

/-! ### Comparisons -/

/-- The result of a comparison at XLEN bits, as a cell (R303). -/
theorem setWidth_flag (x : Xlen) (c : Bool) :
    (if c then BitVec.ofNat x.bits 1 else BitVec.ofNat x.bits 0).setWidth 64 = if c then 1#64 else 0#64 := by
  cases x <;> cases c <;> rfl

theorem atXlen_sltOp (x : Xlen) (a b : Word) : atXlen x sltOp a b = if sgn x a < sgn x b then 1#64 else 0#64 := by
  rw [atXlen_eq_setWidth, sltOp, setWidth_flag, sgn_eq_toInt, sgn_eq_toInt]
  simp only [ltSigned, BitVec.slt_iff_toInt_lt]

theorem atXlen_sltuOp (x : Xlen) (a b : Word) : atXlen x sltuOp a b = if uns x a < uns x b then 1#64 else 0#64 := by
  rw [atXlen_eq_setWidth, sltuOp, setWidth_flag, uns_eq_toNat, uns_eq_toNat]
  simp only [ltUnsigned, BitVec.ult_iff_toNat_lt, Int.ofNat_lt]

/-! ### Shifts -/

/-- The shift amount is the low 5 or 6 bits of the cell (R308, R313). -/
theorem shiftAmount_setWidth_bits (x : Xlen) (b : Word) : shiftAmount (b.setWidth x.bits) = b.toNat % x.bits := by
  rw [shiftAmount, BitVec.toNat_setWidth]
  refine Nat.mod_mod_of_dvd _ ?_
  cases x <;> decide

theorem shiftAmount_setWidth_word (b : Word) : shiftAmount (b.setWidth 32) = b.toNat % 32 :=
  shiftAmount_setWidth_bits .rv32 b

theorem sllOp_eq_ofInt {w : Nat} (a b : BitVec w) : sllOp a b = BitVec.ofInt w (a.toNat * 2 ^ shiftAmount b) := by
  have product : ((a.toNat * 2 ^ shiftAmount b : Nat) : Int) = a.toNat * 2 ^ shiftAmount b := by push_cast; rfl
  rw [← product, BitVec.ofInt_natCast, sllOp]
  apply BitVec.eq_of_toNat_eq
  rw [BitVec.toNat_shiftLeft, BitVec.toNat_ofNat, Nat.shiftLeft_eq]

theorem srlOp_eq_ofInt {w : Nat} (a b : BitVec w) : srlOp a b = BitVec.ofInt w (a.toNat / 2 ^ shiftAmount b) := by
  have quotient : ((a.toNat / 2 ^ shiftAmount b : Nat) : Int) = a.toNat / 2 ^ shiftAmount b := by push_cast; rfl
  rw [← quotient, BitVec.ofInt_natCast, srlOp]
  apply BitVec.eq_of_toNat_eq
  rw [BitVec.toNat_ushiftRight, BitVec.toNat_ofNat, Nat.shiftRight_eq_div_pow,
    Nat.mod_eq_of_lt ((Nat.div_le_self ..).trans_lt a.isLt)]

theorem sraOp_eq_ofInt {w : Nat} (a b : BitVec w) : sraOp a b = BitVec.ofInt w (a.toInt / 2 ^ shiftAmount b) := by
  rw [sraOp, BitVec.sshiftRight, Int.shiftRight_eq_div_pow]
  push_cast; rfl

/-! The shifts at XLEN bits, by the amount that a cell holds. -/

theorem atXlen_sllOp (x : Xlen) (a b : Word) : atXlen x sllOp a b = truncI x (uns x a * 2 ^ (b.toNat % x.bits)) :=
  atXlen_of_ofInt (by rw [sllOp_eq_ofInt, shiftAmount_setWidth_bits, uns_eq_toNat])

theorem atXlen_srlOp (x : Xlen) (a b : Word) : atXlen x srlOp a b = truncI x (uns x a / 2 ^ (b.toNat % x.bits)) :=
  atXlen_of_ofInt (by rw [srlOp_eq_ofInt, shiftAmount_setWidth_bits, uns_eq_toNat])

theorem atXlen_sraOp (x : Xlen) (a b : Word) : atXlen x sraOp a b = truncI x (sgn x a / 2 ^ (b.toNat % x.bits)) :=
  atXlen_of_ofInt (by rw [sraOp_eq_ofInt, shiftAmount_setWidth_bits, sgn_eq_toInt])

/-! The shifts of the `*W` forms (R322 to R324, R327, R328). -/

theorem atWord_sllOp (x : Xlen) (a b : Word) :
    truncX x (atWord sllOp a b) = sext32I x (uns32 a * 2 ^ (b.toNat % 32)) :=
  atWord_of_ofInt (by rw [sllOp_eq_ofInt, shiftAmount_setWidth_word, uns32])

theorem atWord_srlOp (x : Xlen) (a b : Word) :
    truncX x (atWord srlOp a b) = sext32I x (uns32 a / 2 ^ (b.toNat % 32)) :=
  atWord_of_ofInt (by rw [srlOp_eq_ofInt, shiftAmount_setWidth_word, uns32])

theorem atWord_sraOp (x : Xlen) (a b : Word) :
    truncX x (atWord sraOp a b) = sext32I x (sgn32 a / 2 ^ (b.toNat % 32)) :=
  atWord_of_ofInt (by rw [sraOp_eq_ofInt, shiftAmount_setWidth_word, sgn32])

/-- An immediate shift amount that the width has is the amount of the shift. -/
theorem shamt_mod {n m : Nat} (k : BitVec n) (hn : n ≤ 64) (h : k.toNat < m) : (k.setWidth 64).toNat % m = k.toNat := by
  rw [BitVec.toNat_setWidth_of_le hn, Nat.mod_eq_of_lt h]

/-! ### The results -/

/-- Settles O16: a sign-extended immediate holds its integer at both widths. -/
theorem immediateResults : Obligations.ImmediateResults := by
  unfold Obligations.ImmediateResults
  intro s rd rs1 imm immu
  refine ⟨?_, ?_, ?_, ?_, ?_, ?_, ?_, ?_⟩
  · exact writeNext_of_truncX rfl
  · exact writeNext_of_truncX ((truncX_add ..).trans (atXlen_addOp_ofInt ..))
  · exact writeNext_of_eq (atXlen_addOp_ofInt ..)
  · refine writeNext_of_eq ?_
    rw [atXlen_sltOp, sgn_imm12]
  · refine writeNext_of_eq ?_
    rw [atXlen_sltuOp, ← uns_truncX _ (imm12 imm)]; rfl
  · exact immOp_bitwise (fun _ _ => BitVec.setWidth_xor) ..
  · exact immOp_bitwise (fun _ _ => BitVec.setWidth_or) ..
  · exact immOp_bitwise (fun _ _ => BitVec.setWidth_and) ..

/-- Settles O17: an amount that the width has is all of the shift amount. -/
theorem shiftImmediateResults : Obligations.ShiftImmediateResults := by
  unfold Obligations.ShiftImmediateResults
  intro s rd rs1 shamt h
  have amount := shamt_mod shamt (by decide) h
  refine ⟨?_, ?_, ?_⟩
  all_goals refine writeNext_of_eq ?_
  · rw [atXlen_sllOp, amount]
  · rw [atXlen_srlOp, amount]
  · rw [atXlen_sraOp, amount]

/-- Settles O18: each operation is one on integers at XLEN bits, or on bits. -/
theorem registerResults : Obligations.RegisterResults := by
  unfold Obligations.RegisterResults
  intro s rd rs1 rs2
  refine ⟨?_, ?_, ?_, ?_, ?_, ?_, ?_, ?_, ?_, ?_⟩
  · exact regOp_unsigned ofInt_toNat_add ..
  · exact regOp_unsigned ofInt_toNat_sub ..
  · exact writeNext_of_eq (atXlen_sllOp ..)
  · exact writeNext_of_eq (atXlen_sltOp ..)
  · exact writeNext_of_eq (atXlen_sltuOp ..)
  · exact regOp_bitwise (fun _ _ => BitVec.setWidth_xor) ..
  · exact writeNext_of_eq (atXlen_srlOp ..)
  · exact writeNext_of_eq (atXlen_sraOp ..)
  · exact regOp_bitwise (fun _ _ => BitVec.setWidth_or) ..
  · exact regOp_bitwise (fun _ _ => BitVec.setWidth_and) ..

/-- Settles O19: each operation is one on integers at 32 bits, and the register holds its sign extension. -/
theorem wordResults : Obligations.WordResults := by
  unfold Obligations.WordResults
  intro s rd rs1 rs2 imm shamt
  have amount := shamt_mod shamt (by decide) shamt.isLt
  refine ⟨?_, ?_, ?_, ?_, ?_, ?_, ?_, ?_, ?_⟩
  · exact writeNext_of_truncX (atWord_addOp_ofInt ..)
  · exact writeNext_of_truncX ((atWord_sllOp ..).trans (by rw [amount]))
  · exact writeNext_of_truncX ((atWord_srlOp ..).trans (by rw [amount]))
  · exact writeNext_of_truncX ((atWord_sraOp ..).trans (by rw [amount]))
  · exact regOpW_unsigned ofInt_toNat_add ..
  · exact regOpW_unsigned ofInt_toNat_sub ..
  · exact writeNext_of_truncX (atWord_sllOp ..)
  · exact writeNext_of_truncX (atWord_srlOp ..)
  · exact writeNext_of_truncX (atWord_sraOp ..)

end Sys2Proof.Machine
end

section
/-! SUPPORT. Multiplication and division (spec/41_muldiv.md R360 to R373): each operation at `w` bits is one on
integers, its corners included, and XLEN and 32 are the widths at which the instructions use it. -/

namespace Sys2Proof.Machine

open Sys2Proof

/-! ### Register forms from their results as integers -/

section Forms

variable {f : {w : Nat} → BitVec w → BitVec w → BitVec w} {n : Nat} {rd rs1 rs2 : Reg} {s : State} {i : Int}

/-- A register form, from its result as an integer at XLEN bits. -/
theorem regOp_of_ofInt (h : f ((s.reg rs1).setWidth s.params.xlen.bits) ((s.reg rs2).setWidth s.params.xlen.bits)
    = BitVec.ofInt s.params.xlen.bits i) :
    regOp n f rd rs1 rs2 s = .next (s.wrote n rd (truncI s.params.xlen i)) :=
  writeNext_of_eq (atXlen_of_ofInt h)

/-- A `*W` register form, from its 32-bit result as an integer. -/
theorem regOpW_of_ofInt (h : f ((s.reg rs1).setWidth 32) ((s.reg rs2).setWidth 32) = BitVec.ofInt 32 i) :
    regOpW n f rd rs1 rs2 s = .next (s.wrote n rd (sext32I s.params.xlen i)) :=
  writeNext_of_truncX (atWord_of_ofInt h)

end Forms

/-! ### The ranges of a width (R360) -/

theorem fullRange_eq_two_pow (x : Xlen) : fullRange x = ((2 ^ x.bits : Nat) : Int) := by cases x <;> rfl

theorem neg_halfRange (x : Xlen) : -halfRange x = minInt x.bits := by cases x <;> rfl

/-- The all-ones result of a division by zero is -1 (R365, R366). -/
theorem allOnes_eq_ofInt (w : Nat) : BitVec.allOnes w = BitVec.ofInt w (-1) := by
  rw [← BitVec.neg_one_eq_allOnes, BitVec.ofInt_neg]; rfl

/-! ### The operations at `w` bits

Each branch of a division, its corners included, is the truncation of an integer, so the truncation goes outside the
`if` (`apply_ite`). -/

section Operations

variable {w : Nat} (a b : BitVec w)

theorem mulOp_eq_ofInt : mulOp a b = BitVec.ofInt w (a.toNat * b.toNat) := by
  rw [mulOp, ← BitVec.ofInt_natCast]; push_cast; rfl

theorem mulhuOp_eq_ofInt : mulhuOp a b = BitVec.ofInt w (a.toNat * b.toNat / ((2 ^ w : Nat) : Int)) := by
  rw [mulhuOp, ← BitVec.ofInt_natCast]; push_cast; rfl

theorem divOp_eq_ofInt : divOp a b = BitVec.ofInt w
    (if b.toInt = 0 then -1
      else if a.toInt = minInt w ∧ b.toInt = -1 then minInt w
      else a.toInt.tdiv b.toInt) := by
  rw [divOp, apply_ite (BitVec.ofInt w), apply_ite (BitVec.ofInt w), allOnes_eq_ofInt]

theorem divuOp_eq_ofInt : divuOp a b = BitVec.ofInt w
    (if (b.toNat : Int) = 0 then -1 else (a.toNat : Int) / b.toNat) := by
  simp only [divuOp, Int.natCast_eq_zero, apply_ite (BitVec.ofInt w), ← Int.natCast_ediv, BitVec.ofInt_natCast,
    allOnes_eq_ofInt]

theorem remOp_eq_ofInt : remOp a b = BitVec.ofInt w
    (if b.toInt = 0 then a.toInt
      else if a.toInt = minInt w ∧ b.toInt = -1 then 0
      else a.toInt - b.toInt * a.toInt.tdiv b.toInt) := by
  rw [remOp, apply_ite (BitVec.ofInt w), apply_ite (BitVec.ofInt w), BitVec.ofInt_toInt]; rfl

theorem remuOp_eq_ofInt : remuOp a b = BitVec.ofInt w
    (if (b.toNat : Int) = 0 then (a.toNat : Int) else (a.toNat : Int) % b.toNat) := by
  simp only [remuOp, Int.natCast_eq_zero, apply_ite (BitVec.ofInt w), ← Int.natCast_emod, BitVec.ofInt_natCast,
    BitVec.ofNat_toNat, BitVec.setWidth_eq]

end Operations

/-! ### The results -/

/-- Settles O20: the ranges are those of XLEN bits, and each operation is taken at that width. -/
theorem mulDivResults : Obligations.MulDivResults := by
  unfold Obligations.MulDivResults
  intro s rd rs1 rs2
  simp only [uns_eq_toNat, sgn_eq_toInt, fullRange_eq_two_pow, neg_halfRange]
  exact ⟨regOp_of_ofInt (mulOp_eq_ofInt ..), regOp_of_ofInt rfl, regOp_of_ofInt rfl,
    regOp_of_ofInt (mulhuOp_eq_ofInt ..), regOp_of_ofInt (divOp_eq_ofInt ..), regOp_of_ofInt (divuOp_eq_ofInt ..),
    regOp_of_ofInt (remOp_eq_ofInt ..), regOp_of_ofInt (remuOp_eq_ofInt ..)⟩

/-- Settles O21: each operation is taken at 32 bits, with the least integer of that width in the corners. -/
theorem mulDivWordResults : Obligations.MulDivWordResults := by
  unfold Obligations.MulDivWordResults
  intro s rd rs1 rs2
  have least : (-2 ^ 31 : Int) = minInt 32 := rfl
  simp only [least]
  exact ⟨regOpW_of_ofInt (mulOp_eq_ofInt ..), regOpW_of_ofInt (divOp_eq_ofInt ..),
    regOpW_of_ofInt (divuOp_eq_ofInt ..), regOpW_of_ofInt (remOp_eq_ofInt ..), regOpW_of_ofInt (remuOp_eq_ofInt ..)⟩

end Sys2Proof.Machine
end

section
/-! SUPPORT. Control transfer (spec/42_control.md R390 to R398, spec/70_reset_and_hazards.md R697): targets and
conditions as integers, the jumps and branches by their targets, and their frame. -/

namespace Sys2Proof.Machine

open Sys2Proof

/-! ### Targets (R391 to R393) -/

/-- The sum of a cell and an integer, at XLEN bits. -/
theorem truncX_add_ofInt (x : Xlen) (a : Word) (i : Int) : truncX x (a + BitVec.ofInt 64 i) = truncI x (uns x a + i) :=
  (truncX_add ..).trans (atXlen_addOp_ofInt ..)

/-- The offset of a jump or branch is twice its immediate (R224, R241). -/
theorem signExtend_append_zero {n : Nat} (imm : BitVec n) :
    (imm ++ 0#1).signExtend 64 = BitVec.ofInt 64 (2 * imm.toInt) := by
  have twice : (imm ++ 0#1).toInt = 2 * imm.toInt := by
    rw [BitVec.toInt_append]
    split
    · rename_i h
      obtain rfl : n = 0 := by simpa using h
      simp [BitVec.toInt_zero_length]
    · simp
  rw [BitVec.signExtend, twice]

/-- The target of JAL and of the branches, by their immediate. -/
theorem pcRel_append {n : Nat} (s : State) (imm : BitVec n) : s.pcRel ((imm ++ 0#1).signExtend 64) =
    truncI s.params.xlen (uns s.params.xlen s.pc + 2 * imm.toInt) := by
  rw [signExtend_append_zero, State.pcRel, truncX_add_ofInt]

theorem toNat_clear_bit0 (v : Word) : (v &&& ~~~1#64).toNat = v.toNat / 2 * 2 := by
  have shifts : v &&& ~~~1#64 = v >>> 1 <<< 1 := by
    apply BitVec.eq_of_getLsbD_eq
    intro i hi
    rw [BitVec.getLsbD_and, BitVec.getLsbD_not, BitVec.getLsbD_one, BitVec.getLsbD_shiftLeft,
      BitVec.getLsbD_ushiftRight]
    cases i <;> simp [hi, Nat.add_comm 1]
  rw [shifts, BitVec.toNat_shiftLeft, BitVec.toNat_ushiftRight, Nat.shiftLeft_eq, Nat.shiftRight_eq_div_pow]
  have := v.isLt
  omega

/-- Clearing bit 0 of an XLEN-bit integer. -/
theorem truncI_clear_bit0 (x : Xlen) (i : Int) : truncI x i &&& ~~~1#64 = truncI x (i / 2 * 2) := by
  apply BitVec.eq_of_toNat_eq
  rw [toNat_clear_bit0, truncI_eq_ofInt, truncI_eq_ofInt, BitVec.toNat_setWidth, BitVec.toNat_setWidth,
    BitVec.toNat_ofInt, BitVec.toNat_ofInt]
  cases x <;> simp only [Xlen.bits] <;> omega

/-- The target of JALR, by its offset (R392). -/
theorem addr_ofInt_clear_bit0 (s : State) (rs1 : Reg) (i : Int) : s.addr rs1 (BitVec.ofInt 64 i) &&& ~~~1#64 =
    truncI s.params.xlen ((uns s.params.xlen (s.reg rs1) + i) / 2 * 2) := by
  rw [State.addr, truncX_add_ofInt, truncI_clear_bit0]

theorem truncX_truncI (x : Xlen) (i : Int) : truncX x (truncI x i) = truncI x i := truncX_truncX ..

/-- The next instruction and the link value (R13). -/
theorem npc_eq_truncI (s : State) (n : Nat) : s.npc n = truncI s.params.xlen (uns s.params.xlen s.pc + n) := by
  rw [← truncX_add_ofInt, BitVec.ofInt_natCast]; rfl

/-! ### Conditions (R393 to R398) -/

theorem cmpXlen_eq_setWidth (x : Xlen) (f : {w : Nat} → BitVec w → BitVec w → Bool) (a b : Word) :
    cmpXlen x f a b = f (a.setWidth x.bits) (b.setWidth x.bits) := by
  cases x
  · rfl
  · simp [cmpXlen, Xlen.bits]

theorem compare_ltSigned (s : State) (r q : Reg) :
    s.compare ltSigned r q = true ↔ sgn s.params.xlen (s.reg r) < sgn s.params.xlen (s.reg q) := by
  rw [State.compare, cmpXlen_eq_setWidth, sgn_eq_toInt, sgn_eq_toInt]
  exact BitVec.slt_iff_toInt_lt

theorem compare_ltUnsigned (s : State) (r q : Reg) :
    s.compare ltUnsigned r q = true ↔ uns s.params.xlen (s.reg r) < uns s.params.xlen (s.reg q) := by
  rw [State.compare, cmpXlen_eq_setWidth, uns_eq_toNat, uns_eq_toNat, Int.ofNat_lt]
  exact BitVec.ult_iff_toNat_lt

/-- The comparison of C.BEQZ and C.BNEZ (R567, R568). -/
theorem compare_eqBits_zero (s : State) (r : Reg) :
    s.compare eqBits r 0#5 = true ↔ uns s.params.xlen (s.reg r) = 0 := by
  rw [compare_eqBits, reg_zero, uns, uns, truncX_zero]; rfl

theorem not_eq_true_of_iff {b : Bool} {c : Prop} (h : b = true ↔ c) : (!b) = true ↔ ¬ c := by
  rw [← h, Bool.not_eq_true', Bool.not_eq_true]

/-! ### `CheckTarget` (R390) -/

theorem goodTarget_iff {s : State} {t : Word} : s.goodTarget t ↔ s.badTarget t = false := by
  cases hc : s.params.cEnabled <;> simp [State.goodTarget, State.badTarget, hc]

theorem badTarget_of_bit1 {s : State} {t : Word} (hc : s.params.cEnabled = false) (h : t.getLsbD 1 = true) :
    s.badTarget t = true := by simp [State.badTarget, hc, h]

/-- The outcome of `CheckTarget(t)`: the trap with `t` as its value, or `u`, the state after the transfer to `t`. -/
def State.checked (s : State) (t : Word) (u : State) : State :=
  if s.badTarget t then s.excState .instructionAddressMisaligned t else u

theorem checked_of_good {s : State} {t : Word} (h : s.goodTarget t) (u : State) : s.checked t u = u := by
  simp [State.checked, goodTarget_iff.1 h]

theorem checked_of_bad {s : State} {t : Word} (h : s.badTarget t = true) (u : State) :
    s.checked t u = s.excState .instructionAddressMisaligned t := if_pos h

/-! ### The jumps -/

/-- The link and the halt check of a jump, from an XLEN-bit target (R697 (a)). -/
theorem jumpHalt_eq_jumped {s : State} {t : Word} (ht : truncX s.params.xlen t = t) (n : Nat) (rd : Reg) :
    ((s.setReg rd (s.npc n)).setPc t).jumpHalt = s.jumped n rd t := by
  rw [State.jumpHalt, State.jumped, npc_eq_truncI]
  simp only [setPc_haltRequested, setReg_haltRequested, setPc_pc, setReg_params, ht]

theorem jumpTo_eq_checked {s : State} {t : Word} (ht : truncX s.params.xlen t = t) (n : Nat) (rd : Reg) :
    jumpTo n rd t s = .next (s.checked t (s.jumped n rd t)) := by
  rw [← jumpHalt_eq_jumped ht, State.checked, apply_ite Host.Outcome.next]; rfl

section Jumps

variable {s : State} {t : Word}

/-- The JAL form (R391). -/
theorem jumpRel_append {w : Nat} {imm : BitVec w}
    (ht : t = truncI s.params.xlen (uns s.params.xlen s.pc + 2 * imm.toInt)) (n : Nat) (rd : Reg) :
    jumpRel n rd ((imm ++ 0#1).signExtend 64) s = .next (s.checked t (s.jumped n rd t)) := by
  rw [jumpRel, pcRel_append, ← ht]
  exact jumpTo_eq_checked (ht ▸ truncX_truncI ..) n rd

/-- The JALR form (R392). -/
theorem jumpReg_ofInt {rs1 : Reg} {i : Int}
    (ht : t = truncI s.params.xlen ((uns s.params.xlen (s.reg rs1) + i) / 2 * 2)) (n : Nat) (rd : Reg) :
    jumpReg n rd rs1 (BitVec.ofInt 64 i) s = .next (s.checked t (s.jumped n rd t)) := by
  rw [jumpReg, addr_ofInt_clear_bit0, ← ht]
  exact jumpTo_eq_checked (ht ▸ truncX_truncI ..) n rd

/-- C.JR and C.JALR: the JALR form with offset 0 (R575, R578). -/
theorem jumpReg_zero {rs1 : Reg} (ht : t = truncI s.params.xlen (uns s.params.xlen (s.reg rs1) / 2 * 2)) (n : Nat)
    (rd : Reg) : jumpReg n rd rs1 0#64 s = .next (s.checked t (s.jumped n rd t)) :=
  jumpReg_ofInt (i := 0) (by rw [ht, Int.add_zero]) n rd

end Jumps

/-- Settles O25: the target of each form is the integer of its rule, and it passes the check. -/
theorem jumpResults : Obligations.JumpResults := by
  unfold Obligations.JumpResults
  refine ⟨fun s rd imm t ht hg => ?_, fun s rd rs1 imm t ht hg => ?_, fun s imm t ht hg => ⟨?_, ?_⟩,
    fun s rs1 t ht hg => ⟨?_, ?_⟩⟩
  · exact (jumpRel_append ht 4 rd).trans (congrArg _ (checked_of_good hg _))
  · exact (jumpReg_ofInt ht 4 rd).trans (congrArg _ (checked_of_good hg _))
  · exact (jumpRel_append ht 2 0#5).trans (congrArg _ (checked_of_good hg _))
  · exact (jumpRel_append ht 2 1#5).trans (congrArg _ (checked_of_good hg _))
  · exact (jumpReg_zero ht 2 0#5).trans (congrArg _ (checked_of_good hg _))
  · exact (jumpReg_zero ht 2 1#5).trans (congrArg _ (checked_of_good hg _))

/-! ### The branches -/

/-- A branch by its condition and its target. -/
theorem branchIf_append {s : State} {w : Nat} {imm : BitVec w} {t : Word} {taken : Bool} {c : Prop} [Decidable c]
    (ht : t = truncI s.params.xlen (uns s.params.xlen s.pc + 2 * imm.toInt)) (n : Nat) (hc : taken = true ↔ c) :
    branchIf n taken ((imm ++ 0#1).signExtend 64) s = .next (if c then s.checked t (s.setPc t) else s.advance n) := by
  rw [branchIf, pcRel_append, ← ht, State.checked]
  simp only [hc, apply_ite Host.Outcome.next]
  rfl

/-- The six branches, whatever the check of their target gives (R393 to R398). -/
theorem exec_branches {s : State} {imm : BitVec 12} {t : Word} (rs1 rs2 : Reg)
    (ht : t = truncI s.params.xlen (uns s.params.xlen s.pc + 2 * imm.toInt)) :
    let x := s.params.xlen
    let a := s.reg rs1
    let b := s.reg rs2
    let u := s.checked t (s.setPc t)
    exec (.beq rs1 rs2 imm) s = .next (if uns x a = uns x b then u else s.advance 4)
    ∧ exec (.bne rs1 rs2 imm) s = .next (if uns x a ≠ uns x b then u else s.advance 4)
    ∧ exec (.blt rs1 rs2 imm) s = .next (if sgn x a < sgn x b then u else s.advance 4)
    ∧ exec (.bge rs1 rs2 imm) s = .next (if sgn x b ≤ sgn x a then u else s.advance 4)
    ∧ exec (.bltu rs1 rs2 imm) s = .next (if uns x a < uns x b then u else s.advance 4)
    ∧ exec (.bgeu rs1 rs2 imm) s = .next (if uns x b ≤ uns x a then u else s.advance 4) := by
  refine ⟨?_, ?_, ?_, ?_, ?_, ?_⟩
  · exact branchIf_append ht 4 (compare_eqBits ..)
  · exact branchIf_append ht 4 (not_eq_true_of_iff (compare_eqBits ..))
  · exact branchIf_append ht 4 (compare_ltSigned ..)
  · exact branchIf_append ht 4 ((not_eq_true_of_iff (compare_ltSigned ..)).trans Int.not_lt)
  · exact branchIf_append ht 4 (compare_ltUnsigned ..)
  · exact branchIf_append ht 4 ((not_eq_true_of_iff (compare_ltUnsigned ..)).trans Int.not_lt)

/-- Settles O26: each condition is the one on integers, and the target passes the check. -/
theorem branchResults : Obligations.BranchResults := by
  unfold Obligations.BranchResults
  refine ⟨fun s rs1 rs2 imm t ht hg => ?_, fun s rs1 imm t ht hg => ?_⟩
  all_goals rw [← checked_of_good hg (s.setPc t)]
  · exact exec_branches rs1 rs2 ht
  · exact ⟨branchIf_append ht 2 (compare_eqBits_zero ..),
      branchIf_append ht 2 (not_eq_true_of_iff (compare_eqBits_zero ..))⟩

/-- Settles O27: the same targets, where they fail the check. -/
theorem misalignedTargetTraps : Obligations.MisalignedTargetTraps := by
  unfold Obligations.MisalignedTargetTraps
  refine ⟨fun s rd imm t hc ht h1 => ?_, fun s rd rs1 imm t hc ht h1 => ?_, fun s rs1 rs2 imm t hc ht h1 => ?_⟩
  all_goals have bad := badTarget_of_bit1 hc h1
  · exact (jumpRel_append ht 4 rd).trans (congrArg _ (checked_of_bad bad _))
  · exact (jumpReg_ofInt ht 4 rd).trans (congrArg _ (checked_of_bad bad _))
  · simpa only [checked_of_bad bad] using exec_branches rs1 rs2 ht

/-! ### The frame -/

/-- Settles O28: a jump that does not trap writes its destination, the pc and the halt request; a branch, the pc. -/
theorem controlFrame : Obligations.ControlFrame := by
  unfold Obligations.ControlFrame
  rintro i s u (hs | hs) h
  · obtain ⟨t, -, he⟩ := exec_jump hs s
    rw [he] at h
    rcases jumpTo_next h with h | ⟨-, rfl⟩
    · exact .inl h
    · exact .inr ⟨fun r hr => reg_setReg_other s _ hr, by simp [hs]⟩
  · obtain ⟨taken, off, -, he⟩ := exec_branch hs s
    rw [he] at h
    rcases branchIf_next h with h | ⟨-, rfl⟩ | rfl
    · exact .inl h
    · exact .inr ⟨fun _ _ => rfl, rfl, rfl, rfl, rfl, rfl, fun _ => rfl, fun _ => rfl⟩
    · exact .inr ⟨fun _ _ => rfl, rfl, rfl, rfl, rfl, rfl, fun _ => rfl, fun _ => rfl⟩

end Sys2Proof.Machine
end

section
/-! SUPPORT. The loads and the stores that complete (spec/43_loadstore.md R420 to R432, spec/47_compressed.md R543 to
R583): the address as an integer, the loaded value as an extended integer, and the stored bytes. -/

namespace Sys2Proof.Machine

open Sys2Proof

/-! ### Addresses (R224, R241) -/

/-- The address of an access, by its offset as an integer. -/
theorem addr_ofInt (s : State) (r : Reg) (i : Int) :
    s.addr r (BitVec.ofInt 64 i) = truncI s.params.xlen (uns s.params.xlen (s.reg r) + i) := truncX_add_ofInt ..

theorem addr_imm12 (s : State) (r : Reg) (imm : BitVec 12) :
    s.addr r (imm12 imm) = truncI s.params.xlen (uns s.params.xlen (s.reg r) + imm.toInt) := addr_ofInt ..

/-- The address of a compressed access: its unsigned offset is a multiple of `2^k`. -/
theorem addr_append_zeros {n k : Nat} (s : State) (r : Reg) (u : BitVec n) : s.addr r ((u ++ 0#k).setWidth 64) =
    truncI s.params.xlen (uns s.params.xlen (s.reg r) + (2 ^ k : Nat) * u.toNat) := by
  have offset : (u ++ 0#k).setWidth 64 = BitVec.ofInt 64 ((2 ^ k : Nat) * u.toNat) := by
    rw [← BitVec.ofNat_toNat, toNat_app, BitVec.toNat_zero, Nat.add_zero, Nat.mul_comm, ← BitVec.ofInt_natCast,
      Int.natCast_mul]
  rw [offset, addr_ofInt]

theorem addr_cw (s : State) (r : Reg) (u : BitVec 5) :
    s.addr r (uimmCW u) = truncI s.params.xlen (uns s.params.xlen (s.reg r) + 4 * u.toNat) := addr_append_zeros s r u

theorem addr_cd (s : State) (r : Reg) (u : BitVec 5) :
    s.addr r (uimmCD u) = truncI s.params.xlen (uns s.params.xlen (s.reg r) + 8 * u.toNat) := addr_append_zeros s r u

theorem addr_cwsp (s : State) (r : Reg) (u : BitVec 6) :
    s.addr r (uimmCWsp u) = truncI s.params.xlen (uns s.params.xlen (s.reg r) + 4 * u.toNat) := addr_append_zeros s r u

theorem addr_cdsp (s : State) (r : Reg) (u : BitVec 6) :
    s.addr r (uimmCDsp u) = truncI s.params.xlen (uns s.params.xlen (s.reg r) + 8 * u.toNat) := addr_append_zeros s r u

/-! ### Extensions (R11) -/

/-- `ext`, an extension of a cell, gives for every value of `n` bytes the integer `val` of it. -/
def Extends (n : Nat) (ext : Word → Word) (val : Nat → Int) : Prop :=
  ∀ m, m < 256 ^ n → ext (BitVec.ofNat 64 m) = BitVec.ofInt 64 (val m)

theorem sextFrom_extends (n : Nat) {k : Nat} (hk : k ≤ 64) :
    Extends n (sextFrom k) fun m => (BitVec.ofNat k m).toInt := by
  intro m _
  rw [sextFrom, BitVec.setWidth_ofNat_of_le hk, BitVec.signExtend]

theorem zextFrom_extends {n k : Nat} (h : 256 ^ n ≤ 2 ^ k) (hk : k ≤ 64) : Extends n (zextFrom k) fun m => m := by
  intro m hm
  rw [zextFrom_ofNat (hm.trans_le h) hk, BitVec.ofInt_natCast]

theorem id_extends (n : Nat) : Extends n id fun m => m := fun _ _ => (BitVec.ofInt_natCast ..).symm

/-! ### Loads -/

theorem leNat_lt (m : Memory) (pas : List Nat) (h : pas.length ≤ 8) : leNat m pas < 256 ^ pas.length :=
  Memory.readLE_toNat m pas h ▸ Memory.readLE_lt m pas h

/-- A load completes with the integer value of its extension. -/
theorem loadsAs_of_exec {i : Instr} {s : State} {ilen n : Nat} {ext : Word → Word} {rd rs1 : Reg} {off va : Word}
    {val : Nat → Int} (hi : exec i s = loadOp ilen n ext rd rs1 off s) (ha : s.addr rs1 off = va) (hn : n ≤ 8)
    (he : Extends n ext val) : LoadsAs i s ilen n rd va val := by
  subst ha
  intro hal pas hp
  obtain rfl := access_length hp
  have value : ext (s.mem.readLE pas) = BitVec.ofInt 64 (val (leNat s.mem pas)) := by
    rw [Memory.readLE_eq _ _ hn, he _ (leNat_lt _ _ hn)]
  rw [hi, loadOp_ok (strictMisaligned_of_ok hal.symm) hp, value]
  exact congrArg _ (wrote_congr (truncX_truncX ..).symm)

/-- Settles O29: every load is the shared operation, with the extension that its rule names. -/
theorem loadResults : Obligations.LoadResults := by
  unfold Obligations.LoadResults
  refine ⟨fun s rd rs1 imm va hva => hva ▸ ?_, fun s rd rs1 uimm => ⟨?_, ?_⟩, fun s rd uimm => ⟨?_, ?_⟩⟩
  · refine ⟨?_, ?_, ?_, ?_, ?_, ?_, ?_⟩
    · exact loadsAs_of_exec (exec_lb ..) (addr_imm12 ..) (by decide) (sextFrom_extends 1 (by decide))
    · exact loadsAs_of_exec (exec_lh ..) (addr_imm12 ..) (by decide) (sextFrom_extends 2 (by decide))
    · exact loadsAs_of_exec (exec_lw ..) (addr_imm12 ..) (by decide) (sextFrom_extends 4 (by decide))
    · exact loadsAs_of_exec (exec_ld ..) (addr_imm12 ..) (by decide) (id_extends 8)
    · exact loadsAs_of_exec (exec_lbu ..) (addr_imm12 ..) (by decide) (zextFrom_extends (by decide) (by decide))
    · exact loadsAs_of_exec (exec_lhu ..) (addr_imm12 ..) (by decide) (zextFrom_extends (by decide) (by decide))
    · exact loadsAs_of_exec (exec_lwu ..) (addr_imm12 ..) (by decide) (zextFrom_extends (by decide) (by decide))
  · exact loadsAs_of_exec (exec_cLw ..) (addr_cw ..) (by decide) (sextFrom_extends 4 (by decide))
  · exact loadsAs_of_exec (exec_cLd ..) (addr_cd ..) (by decide) (id_extends 8)
  · exact loadsAs_of_exec (exec_cLwsp ..) (addr_cwsp ..) (by decide) (sextFrom_extends 4 (by decide))
  · exact loadsAs_of_exec (exec_cLdsp ..) (addr_cdsp ..) (by decide) (id_extends 8)

/-! ### Stores -/

/-- A store completes with the bytes of `x[rs2]` at its addresses, which are different ones. -/
theorem storesAs_of_exec {i : Instr} {s : State} {ilen n : Nat} {rs1 rs2 : Reg} {off va : Word}
    (hi : exec i s = storeOp ilen n rs1 rs2 off s) (ha : s.addr rs1 off = va) (hn : n ≤ 8) :
    StoresAs i s ilen n va (s.reg rs2) := by
  subst ha
  intro hal pas hp
  refine ⟨_, hi.trans (storeOp_ok (strictMisaligned_of_ok hal.symm) hp), rfl, fun hw k hk => ?_⟩
  rw [advance_mem, clearResv_mem, storeAt_mem, afterAccess_mem, Memory.read_writeLE hw (access_nodup hn hp),
    BitVec.extractLsb', Nat.shiftRight_eq_div_pow]

/-- Settles O30: every store is the shared operation, at the address that its rule names. -/
theorem storeResults : Obligations.StoreResults := by
  unfold Obligations.StoreResults
  refine ⟨fun s rs1 rs2 imm va hva => hva ▸ ?_, fun s rs1 rs2 uimm => ⟨?_, ?_⟩, fun s rs2 uimm => ⟨?_, ?_⟩⟩
  · refine ⟨?_, ?_, ?_, ?_⟩
    · exact storesAs_of_exec (exec_sb ..) (addr_imm12 ..) (by decide)
    · exact storesAs_of_exec (exec_sh ..) (addr_imm12 ..) (by decide)
    · exact storesAs_of_exec (exec_sw ..) (addr_imm12 ..) (by decide)
    · exact storesAs_of_exec (exec_sd ..) (addr_imm12 ..) (by decide)
  · exact storesAs_of_exec (exec_cSw ..) (addr_cw ..) (by decide)
  · exact storesAs_of_exec (exec_cSd ..) (addr_cd ..) (by decide)
  · exact storesAs_of_exec (exec_cSwsp ..) (addr_cwsp ..) (by decide)
  · exact storesAs_of_exec (exec_cSdsp ..) (addr_cdsp ..) (by decide)

end Sys2Proof.Machine
end

section
/-! SUPPORT. The atomics that complete (spec/44_atomics.md R450 to R478): LR and SC, the operations of the AMOs on
integers at the width of their granule, and what sets, keeps and clears the reservation. -/

namespace Sys2Proof.Machine

open Sys2Proof

/-! ### What is stored (R142) -/

/-- A store takes no more bits of its value than its addresses have room for. -/
theorem Memory.writeLE_congr (m : Memory) {pas : List Nat} {v w : Word}
    (h : ∀ k, k < 8 * pas.length → v.getLsbD k = w.getLsbD k) : m.writeLE pas v = m.writeLE pas w := by
  induction pas generalizing m v w with
  | nil => rfl
  | cons a as ih =>
    rw [List.length_cons] at h
    have first : v.setWidth 8 = w.setWidth 8 := BitVec.eq_of_getLsbD_eq fun k hk => by
      rw [BitVec.getLsbD_setWidth, BitVec.getLsbD_setWidth, h k (by omega)]
    have rest : ∀ k, k < 8 * as.length → (v >>> 8).getLsbD k = (w >>> 8).getLsbD k := fun k hk => by
      rw [BitVec.getLsbD_ushiftRight, BitVec.getLsbD_ushiftRight, h (8 + k) (by omega)]
    rw [Memory.writeLE, Memory.writeLE, first, ih _ rest]

/-! ### A granule (R450, R460) -/

theorem Granule.bytes_le (g : Granule) : g.bytes ≤ 8 := by cases g <;> decide

/-- An operation of either granule is the operation at `8·size` bits. -/
theorem Granule.apply_eq_setWidth (g : Granule) (f : {w : Nat} → BitVec w → BitVec w → BitVec w) (a b : Word) :
    g.apply f a b = (f (a.setWidth (8 * g.bytes)) (b.setWidth (8 * g.bytes))).setWidth 64 := by
  cases g
  · rfl
  · simp [Granule.apply, Granule.bytes]

/-- The low `8·size` bits of a cell that holds an integer. -/
theorem Granule.setWidth_ofInt (g : Granule) (i : Int) :
    (BitVec.ofInt 64 i).setWidth (8 * g.bytes) = BitVec.ofInt (8 * g.bytes) i := by
  cases g
  · exact ofInt_setWidth_bits .rv32 i
  · exact ofInt_setWidth_bits .rv64 i

theorem Granule.two_pow_bits (g : Granule) : 2 ^ (8 * g.bytes) = 256 ^ g.bytes := Nat.pow_mul ..

/-- The bytes of an allowed access, as a cell and as an integer of `8·size` bits. -/
theorem Granule.readLE_access {g : Granule} {s : State} {va : Word} {it : Intent} {pas : List Nat}
    (hp : s.access va g.bytes it = .ok pas) :
    s.mem.readLE pas = BitVec.ofNat 64 (leNat s.mem pas) ∧ leNat s.mem pas < 256 ^ g.bytes := by
  rw [← access_length hp]
  have room : pas.length ≤ 8 := access_length hp ▸ g.bytes_le
  exact ⟨Memory.readLE_eq _ _ room, leNat_lt _ _ room⟩

/-- What a granule's form writes to `rd` of the bytes it accessed, as an integer. -/
theorem Granule.sext_readLE {g : Granule} {s : State} {va : Word} {it : Intent} {pas : List Nat} {val : Nat → Int}
    (he : Extends g.bytes g.sext val) (hp : s.access va g.bytes it = .ok pas) :
    g.sext (s.mem.readLE pas) = BitVec.ofInt 64 (val (leNat s.mem pas)) := by
  obtain ⟨read, lt⟩ := readLE_access hp
  rw [read, he _ lt]

/-! ### The operations that complete -/

section Complete

variable {g : Granule} {f : {w : Nat} → BitVec w → BitVec w → BitVec w} {rd rs1 rs2 : Reg} {s : State} {pas : List Nat}
  (hal : (s.reg rs1).toNat % g.bytes = 0)

include hal

theorem lrOp_ok (hp : s.access (s.reg rs1) g.bytes .load = .ok pas) : lrOp g rd rs1 s =
    .next ({ s.afterAccess (s.reg rs1) g.bytes .load with resv := some { addr := s.reg rs1, size := g } }.wrote 4 rd
      (g.sext (s.mem.readLE pas))) := by
  unfold lrOp; rw [if_neg (not_not.2 hal), hp]; rfl

theorem scOp_ok (hr : s.resv = some { addr := s.reg rs1, size := g })
    (hp : s.access (s.reg rs1) g.bytes .store = .ok pas) : scOp g rd rs1 rs2 s = .next
      ((((s.afterAccess (s.reg rs1) g.bytes .store).storeAt pas (s.reg rs2)).setReg rd 0#64).clearResv.advance 4) := by
  unfold scOp; rw [if_neg (not_not.2 hal), if_pos hr, hp]

theorem scOp_unreserved (hr : s.resv ≠ some { addr := s.reg rs1, size := g }) :
    scOp g rd rs1 rs2 s = .next ((s.setReg rd 1#64).clearResv.advance 4) := by
  unfold scOp; rw [if_neg (not_not.2 hal), if_neg hr]

theorem amoOp_ok (hp : s.access (s.reg rs1) g.bytes .store = .ok pas) : amoOp g f rd rs1 rs2 s = .next
    ((((s.afterAccess (s.reg rs1) g.bytes .store).storeAt pas (g.apply f (s.mem.readLE pas) (s.reg rs2))).setReg rd
      (g.sext (s.mem.readLE pas))).clearResv.advance 4) := by
  unfold amoOp; rw [if_neg (not_not.2 hal), hp]

/-- An LR completes with the integer value of its extension. -/
theorem lrOp_extends {val : Nat → Int} (he : Extends g.bytes g.sext val)
    (hp : s.access (s.reg rs1) g.bytes .load = .ok pas) : lrOp g rd rs1 s =
    .next ({ s.afterAccess (s.reg rs1) g.bytes .load with resv := some { addr := s.reg rs1, size := g } }.wrote 4 rd
      (truncI s.params.xlen (val (leNat s.mem pas)))) := by
  rw [lrOp_ok hal hp, Granule.sext_readLE he hp]
  exact congrArg _ (wrote_congr (truncX_truncX ..).symm)

end Complete

theorem word_extends : Extends (Granule.bytes .word) (Granule.sext .word) fun m => (BitVec.ofNat 32 m).toInt :=
  sextFrom_extends 4 (by decide)

theorem double_extends : Extends (Granule.bytes .double) (Granule.sext .double) fun m => m := id_extends 8

/-! ### LR and SC (R450 to R458) -/

/-- Settles O33: past the alignment check, the reservation alone decides which of its two ends an SC has. -/
theorem lrScResults : Obligations.LrScResults := by
  unfold Obligations.LrScResults
  intro s aq rl rd rs1 rs2
  refine ⟨fun hal pas hp => ?_, fun hal pas hp => ?_, fun hal hr pas hp => ?_, fun hal hr pas hp => ?_,
    fun hal hr => ?_, fun hal hr => ?_⟩
  · rw [exec_lrW, lrOp_extends (g := .word) hal word_extends hp, sext32I, BitVec.ofInt_natCast]; rfl
  · exact (exec_lrD ..).trans (lrOp_extends (g := .double) hal double_extends hp)
  · exact (exec_scW ..).trans (scOp_ok (g := .word) hal hr hp)
  · exact (exec_scD ..).trans (scOp_ok (g := .double) hal hr hp)
  · exact (exec_scW ..).trans (scOp_unreserved (g := .word) hal hr)
  · exact (exec_scD ..).trans (scOp_unreserved (g := .double) hal hr)

/-! The status of an SC, as `rd` then reads it. -/

theorem truncX_one (x : Xlen) : truncX x 1#64 = 1#64 := by cases x <;> rfl

theorem reg_setReg_cleared (s : State) (r : Reg) : (s.setReg r 0#64).reg r = 0#64 := by
  by_cases h : r = 0#5
  · rw [h, reg_zero]
  · rw [reg_setReg_self _ _ h, truncX_zero]

/-- Settles O36: the LR.W set the reservation that the first SC.W needs, and that SC.W cleared it. -/
theorem lrScForwardProgress : Obligations.LrScForwardProgress := by
  unfold Obligations.LrScForwardProgress
  rintro s t u aq rl aq' rl' rd rs1 rd' rs1' rs2 pas hlr hal ⟨qs, hq⟩ hresv haddr hp
  rw [exec_lrW, lrOp_ok (g := .word) hal hq] at hlr
  have held : u.resv = some { addr := u.reg rs1', size := .word } := by
    cases hlr
    rw [hresv, haddr, State.wrote, advance_resv, setReg_resv]
  refine ⟨_, (exec_scW ..).trans (scOp_ok (g := .word) (haddr ▸ hal) held hp), reg_setReg_cleared .., setReg_mem ..,
    rfl, fun hw hrd => ?_⟩
  refine ⟨_, (exec_scW ..).trans (scOp_unreserved (g := .word) (hw ▸ hal) nofun), ?_, setReg_mem ..⟩
  exact (reg_setReg_self _ _ hrd).trans (truncX_one _)

/-! ### The AMOs (R460 to R478) -/

/-- `f`, with the register value `src`, gives for every old value of `w` bits the integer `new` of it. -/
def Updates {w : Nat} (f : BitVec w → BitVec w → BitVec w) (src : BitVec w) (new : Nat → Int) : Prop :=
  ∀ m, m < 2 ^ w → f (BitVec.ofNat w m) src = BitVec.ofInt w (new m)

section Updates

variable {w : Nat} {f : BitVec w → BitVec w → BitVec w} {src : BitVec w} {new : Nat → Int}

theorem Updates.of_toInt (h : ∀ m, m < 2 ^ w → (f (BitVec.ofNat w m) src).toInt = new m) : Updates f src new :=
  fun m hm => by rw [← h m hm, BitVec.ofInt_toInt]

/-- An operation on the unsigned values of its operands. -/
theorem Updates.of_toNat {g : Nat → Nat → Nat} (h : ∀ old, (f old src).toNat = g old.toNat src.toNat) :
    Updates f src fun m => g m src.toNat := by
  intro m hm
  have value : (f (BitVec.ofNat w m) src).toNat = g m src.toNat := by
    rw [h, BitVec.toNat_ofNat, Nat.mod_eq_of_lt hm]
  beta_reduce
  rw [← value, BitVec.ofInt_natCast, BitVec.ofNat_toNat, BitVec.setWidth_eq]

variable (src)

theorem swapOp_updates : Updates swapOp src fun _ => src.toInt := .of_toInt fun _ _ => rfl

theorem addOp_updates : Updates addOp src fun m => m + src.toInt := fun m hm => by
  have sum := addOp_ofInt (BitVec.ofNat w m) src.toInt
  rwa [BitVec.ofInt_toInt, BitVec.toNat_ofNat, Nat.mod_eq_of_lt hm] at sum

theorem xorOp_updates : Updates xorOp src fun m => (BitVec.ofNat w m ^^^ src).toInt := .of_toInt fun _ _ => rfl

theorem andOp_updates : Updates andOp src fun m => (BitVec.ofNat w m &&& src).toInt := .of_toInt fun _ _ => rfl

theorem orOp_updates : Updates orOp src fun m => (BitVec.ofNat w m ||| src).toInt := .of_toInt fun _ _ => rfl

theorem minOp_updates : Updates minOp src fun m => min (BitVec.ofNat w m).toInt src.toInt :=
  .of_toInt fun _ _ => by rw [minOp, apply_ite BitVec.toInt, min_def]

theorem maxOp_updates : Updates maxOp src fun m => max (BitVec.ofNat w m).toInt src.toInt :=
  .of_toInt fun _ _ => by rw [maxOp, apply_ite BitVec.toInt, max_comm, max_def]

theorem minuOp_updates : Updates minuOp src fun m => min (m : Int) src.toNat := by
  simp only [← Nat.cast_min]
  exact .of_toNat fun _ => by rw [minuOp, apply_ite BitVec.toNat, min_def]

theorem maxuOp_updates : Updates maxuOp src fun m => max (m : Int) src.toNat := by
  simp only [← Nat.cast_max]
  exact .of_toNat fun _ => by rw [maxuOp, apply_ite BitVec.toNat, max_comm, max_def]

end Updates

/-- An operation of either granule on the bytes it accessed, in the bits that the granule has. -/
theorem Granule.apply_bits (g : Granule) {f : {w : Nat} → BitVec w → BitVec w → BitVec w} {s : State} {va src : Word}
    {it : Intent} {pas : List Nat} {new : Nat → Int} (hf : Updates f (src.setWidth (8 * g.bytes)) new)
    (hp : s.access va g.bytes it = .ok pas) (k : Nat) (hk : k < 8 * g.bytes) :
    (g.apply f (s.mem.readLE pas) src).getLsbD k = (BitVec.ofInt 64 (new (leNat s.mem pas))).getLsbD k := by
  obtain ⟨read, lt⟩ := readLE_access hp
  have width : 8 * g.bytes ≤ 64 := Nat.mul_le_mul_left 8 g.bytes_le
  calc (g.apply f (s.mem.readLE pas) src).getLsbD k
    _ = (BitVec.ofInt (8 * g.bytes) (new (leNat s.mem pas))).getLsbD k := by
      rw [g.apply_eq_setWidth, read, BitVec.setWidth_ofNat_of_le width, hf _ (g.two_pow_bits ▸ lt),
        BitVec.getLsbD_setWidth, decide_eq_true (hk.trans_le width), Bool.true_and]
    _ = (BitVec.ofInt 64 (new (leNat s.mem pas))).getLsbD k := by
      rw [← g.setWidth_ofInt, BitVec.getLsbD_setWidth, decide_eq_true hk, Bool.true_and]

/-- An AMO of either granule completes with the integers of its old and its new value, at `8·size` bits. -/
theorem amoAs_of_exec (g : Granule) {f : {w : Nat} → BitVec w → BitVec w → BitVec w} {i : Instr} {s : State}
    {rd rs1 rs2 : Reg} {src : BitVec (8 * g.bytes)} {old new : Nat → Int} (hi : exec i s = amoOp g f rd rs1 rs2 s)
    (hs : (s.reg rs2).setWidth (8 * g.bytes) = src) (ho : Extends g.bytes g.sext old) (hf : Updates f src new) :
    AmoAs i s g.bytes rd (s.reg rs1) old new := by
  subst hs
  intro hal pas hp
  rw [hi, amoOp_ok hal hp, Granule.sext_readLE ho hp, State.storeAt,
    Memory.writeLE_congr _ (access_length hp ▸ g.apply_bits hf hp)]
  exact congrArg (fun u : State => Host.Outcome.next (u.clearResv.advance 4)) (setReg_congr (truncX_truncX ..).symm)

/-- Settles O34: every word AMO is the shared operation, at 32 bits. -/
theorem amoWordResults : Obligations.AmoWordResults := by
  unfold Obligations.AmoWordResults
  intro s aq rl rd rs1 rs2
  refine ⟨?_, ?_, ?_, ?_, ?_, ?_, ?_, ?_, ?_⟩
  · exact amoAs_of_exec .word (exec_amoswapW ..) rfl word_extends (swapOp_updates _)
  · exact amoAs_of_exec .word (exec_amoaddW ..) rfl word_extends (addOp_updates _)
  · exact amoAs_of_exec .word (exec_amoxorW ..) rfl word_extends (xorOp_updates _)
  · exact amoAs_of_exec .word (exec_amoandW ..) rfl word_extends (andOp_updates _)
  · exact amoAs_of_exec .word (exec_amoorW ..) rfl word_extends (orOp_updates _)
  · exact amoAs_of_exec .word (exec_amominW ..) rfl word_extends (minOp_updates _)
  · exact amoAs_of_exec .word (exec_amomaxW ..) rfl word_extends (maxOp_updates _)
  · exact amoAs_of_exec .word (exec_amominuW ..) rfl word_extends (minuOp_updates _)
  · exact amoAs_of_exec .word (exec_amomaxuW ..) rfl word_extends (maxuOp_updates _)

/-- Settles O35: every doubleword AMO is the shared operation, at 64 bits. -/
theorem amoDoubleResults : Obligations.AmoDoubleResults := by
  unfold Obligations.AmoDoubleResults
  intro s aq rl rd rs1 rs2
  have src : (s.reg rs2).setWidth 64 = s.reg rs2 := BitVec.setWidth_eq _
  refine ⟨?_, ?_, ?_, ?_, ?_, ?_, ?_, ?_, ?_⟩
  · exact amoAs_of_exec .double (exec_amoswapD ..) src double_extends (swapOp_updates _)
  · exact amoAs_of_exec .double (exec_amoaddD ..) src double_extends (addOp_updates _)
  · exact amoAs_of_exec .double (exec_amoxorD ..) src double_extends (xorOp_updates _)
  · exact amoAs_of_exec .double (exec_amoandD ..) src double_extends (andOp_updates _)
  · exact amoAs_of_exec .double (exec_amoorD ..) src double_extends (orOp_updates _)
  · exact amoAs_of_exec .double (exec_amominD ..) src double_extends (minOp_updates _)
  · exact amoAs_of_exec .double (exec_amomaxD ..) src double_extends (maxOp_updates _)
  · exact amoAs_of_exec .double (exec_amominuD ..) src double_extends (minuOp_updates _)
  · exact amoAs_of_exec .double (exec_amomaxuD ..) src double_extends (maxuOp_updates _)

/-! ### The reservation, over all instructions (R450, R453) -/

theorem Trapped.resv {s t : State} (h : Trapped s t) : t.resv = none := by
  obtain ⟨tlb, e, tval, -, rfl⟩ := h; rfl

/-- Settles O37: the cases are those of `exec_next`, in its order; each has one effect on the reservation. -/
theorem reservationRule : Obligations.ReservationRule := by
  unfold Obligations.ReservationRule
  refine ⟨fun s t h => h.resv, fun i s t h => ?_⟩
  rcases exec_next h with h | ⟨hs, v, rfl⟩ | ⟨hs, t, -, -, rfl⟩ | ⟨hs, ⟨t, -, -, rfl⟩ | rfl⟩ | ⟨hs, va, n, v, -, rfl⟩
    | ⟨hs, va, g, v, hd, rfl⟩ | ⟨hs, va, n, pas, v, v', -, -, -, rfl⟩ | ⟨hs, -, rfl⟩ | ⟨hs, csr, w, c, v, -, -, rfl⟩
    | ⟨hs, rfl⟩ | ⟨hs, f, -, rfl⟩ | ⟨rfl, -, rfl⟩ | ⟨rfl, -, rfl⟩
  · cases i.shape
    case store | sc | amo | ret | call | noFpu => exact h.resv
    case lr => exact .inl h
    all_goals exact .inr h
  · rw [hs]; exact .inl (setReg_resv ..)
  · rw [hs]; exact .inl (setReg_resv ..)
  · rw [hs]; exact .inl rfl
  · rw [hs]; exact .inl rfl
  · rw [hs]; exact .inl (setReg_resv ..)
  · rw [hs]; exact .inr ⟨va, g.bytes, hd, g, rfl, setReg_resv ..⟩
  · rcases hs with hs | hs | hs <;> rw [hs] <;> rfl
  · rw [hs]; rfl
  · rw [hs]; cases w <;> exact .inl (setReg_resv ..)
  · rw [hs]; exact .inl rfl
  · rw [hs]; exact .inl rfl
  · rfl
  · rfl

end Sys2Proof.Machine
end

section
/-! SUPPORT. The CSR instructions (spec/45_csr.md R490 to R497), and what the modes below M leave alone (R655). -/

namespace Sys2Proof.Machine

open Sys2Proof

/-! ### The six forms (R490 to R497) -/

section Form

variable {i : Instr} {rd : Reg} {csr : CsrIndex} {writes : Prop} [Decidable writes] {new : Word → Word} {s : State}

/-- The common form where no CSR is legal (R490). -/
theorem csrOp_of_not_legal (h : ∀ c, ¬ CsrLegal s csr writes c) :
    csrOp i rd csr (decide writes) new s = .next (s.excState .illegalInstruction (encode i).bits) := by
  have check : s.csrCheck csr (decide writes) = none :=
    Option.eq_none_iff_forall_ne_some.2 fun c hc => h c (by simpa only [decide_eq_true_eq] using Laws.csrCheck_iff.1 hc)
  unfold csrOp
  rw [check]
  rfl

/-- A form that is not legal raises with its own bits, those of the I format with `src` in the place of `rs1`. -/
theorem exec_of_not_legal {src : Reg} {f3 : BitVec 3} (h : ∀ c, ¬ CsrLegal s csr writes c)
    (he : exec i s = csrOp i rd csr (decide writes) new s) (hi : encode i = .full (iType csr src f3 rd 0x73#7)) :
    exec i s = .next (s.excState .illegalInstruction (BitVec.ofNat 64
      (csr.toNat * 2 ^ 20 + src.toNat * 2 ^ 15 + f3.toNat * 2 ^ 12 + rd.toNat * 2 ^ 7 + 0x73))) := by
  have own : (encode i).bits = BitVec.ofNat 64 (iType csr src f3 rd 0x73#7).toNat := by
    rw [hi]; exact (BitVec.ofNat_toNat ..).symm
  rw [he, csrOp_of_not_legal h, own, iType_toNat]
  rfl

/-- The common form on a legal CSR (R491). -/
theorem csrOp_of_legal {c : Csr} (h : CsrLegal s csr writes c) : csrOp i rd csr (decide writes) new s =
    .next (((if writes then s.writeCsr c (new (s.readCsr c)) else s).setReg rd (s.readCsr c)).advance 4) := by
  have check : s.csrCheck csr (decide writes) = some c :=
    Laws.csrCheck_iff.2 (by simpa only [decide_eq_true_eq] using h)
  unfold csrOp
  rw [check]
  simp only [decide_eq_true_eq]

/-- The common form of the four instructions that write only where their source field `r` is not 0. -/
theorem csrOp_source_of_legal {r : BitVec 5} {c : Csr} (h : CsrLegal s csr (r ≠ 0#5) c) :
    csrOp i rd csr (decide (r ≠ 0#5)) new s =
      .next (((if r = 0#5 then s else s.writeCsr c (new (s.readCsr c))).setReg rd (s.readCsr c)).advance 4) := by
  rw [csrOp_of_legal h, ite_not]

end Form

/-- Settles O38: each form is the common one, and its trap value is the I format with the form's `funct3`. -/
theorem csrAccessCheck : Obligations.CsrAccessCheck := by
  unfold Obligations.CsrAccessCheck
  intro s rd rs1 uimm csr bits
  refine ⟨fun h => ⟨?_, ?_⟩, fun h => ⟨?_, ?_⟩, fun h => ⟨?_, ?_⟩⟩
  · exact exec_of_not_legal (f3 := 1#3) h (exec_csrrw ..) rfl
  · exact exec_of_not_legal (f3 := 5#3) h (exec_csrrwi ..) rfl
  · exact exec_of_not_legal (f3 := 2#3) h (exec_csrrs ..) rfl
  · exact exec_of_not_legal (f3 := 3#3) h (exec_csrrc ..) rfl
  · exact exec_of_not_legal (f3 := 6#3) h (exec_csrrsi ..) rfl
  · exact exec_of_not_legal (f3 := 7#3) h (exec_csrrci ..) rfl

/-- Settles O39: each form is the common one, with its own new value. -/
theorem csrInstrResults : Obligations.CsrInstrResults := by
  unfold Obligations.CsrInstrResults
  intro s rd rs1 uimm csr c old u done
  refine ⟨fun h => ⟨?_, ?_⟩, fun h => ⟨?_, ?_⟩, fun h => ⟨?_, ?_⟩⟩
  · exact (exec_csrrw ..).trans (csrOp_of_legal h)
  · exact (exec_csrrwi ..).trans (csrOp_of_legal h)
  · exact (exec_csrrs ..).trans (csrOp_source_of_legal h)
  · exact (exec_csrrc ..).trans (csrOp_source_of_legal h)
  · exact (exec_csrrsi ..).trans (csrOp_source_of_legal h)
  · exact (exec_csrrci ..).trans (csrOp_source_of_legal h)

/-! ### The modes below M (R490, R517, R655) -/

/-- The CSRs that S may access (R56). -/
def supervisorCsrs : List Csr := [.sstatus, .sie, .stvec, .sscratch, .sepc, .scause, .stval, .sip, .satp]

/-- U may access no CSR, and S those of its own level alone. -/
theorem csrCheck_mode {s : State} {csr : CsrIndex} {writes : Bool} {c : Csr} (h : s.csrCheck csr writes = some c) :
    s.priv ≠ .u ∧ (s.priv = .s → c ∈ supervisorCsrs) := by
  obtain ⟨row, rank, -⟩ := Laws.csrCheck_iff.1 h
  have level : csr.toNat / 256 % 4 = if c ∈ supervisorCsrs then 1 else 3 := Laws.csrTable_rank row
  refine ⟨fun hp => ?_, fun hp => ?_⟩ <;> rw [level, hp, Priv.rank] at rank
  · split at rank <;> omega
  · by_contra hc
    rw [if_neg hc] at rank
    omega

/-- Everything an instruction can do to the CSRs and the mode. -/
theorem exec_csrs_mode {i : Instr} {s t : State} (h : exec i s = .next t) :
    Trapped s t
    ∨ (i ≠ .sret ∧ t.priv = s.priv ∧ (t.csr = s.csr ∨ ∃ csr writes c v, s.csrCheck csr writes = some c
        ∧ t.csr = s.csr.write s.params v c))
    ∨ (i = .mret ∧ s.priv = .m ∧ t = s.returnM)
    ∨ (i = .sret ∧ s.priv ≠ .u ∧ t = s.returnS) := by
  by_cases hi : i = .sret
  · subst hi
    rcases sret_next h with h | h
    · exact .inl h
    · exact .inr (.inr (.inr ⟨rfl, h⟩))
  rcases exec_next h with h | ⟨-, v, rfl⟩ | ⟨-, t, -, -, rfl⟩ | ⟨-, ⟨t, -, -, rfl⟩ | rfl⟩ | ⟨-, va, n, v, -, rfl⟩
    | ⟨-, va, g, v, -, rfl⟩ | ⟨-, va, n, pas, v, v', -, -, -, rfl⟩ | ⟨-, -, rfl⟩ | ⟨-, csr, w, c, v, -, hc, rfl⟩ | ⟨-, rfl⟩
    | ⟨-, f, -, rfl⟩ | hm | ⟨hr, -⟩
  case inl => exact .inl h
  case inr.inr.inr.inr.inr.inr.inr.inr.inl =>
    cases w
    · exact .inr (.inl ⟨hi, by simp, .inl (by simp)⟩)
    · exact .inr (.inl ⟨hi, by simp, .inr ⟨csr, true, c, truncX s.params.xlen v, hc, by simp⟩⟩)
  case inr.inr.inr.inr.inr.inr.inr.inr.inr.inr.inr.inl => exact .inr (.inr (.inl hm))
  case inr.inr.inr.inr.inr.inr.inr.inr.inr.inr.inr.inr => exact absurd hr hi
  all_goals exact .inr (.inl ⟨hi, by simp, .inl (by simp)⟩)

/-- A masked write of delegated bits keeps the bits that are not delegated (R84). -/
theorem masked_undelegated (deleg mask old v : Word) :
    masked (deleg &&& mask) old v &&& ~~~deleg = old &&& ~~~deleg := by
  unfold masked
  ext i
  simp only [BitVec.getElem_and, BitVec.getElem_or, BitVec.getElem_not]
  grind

/-- The machine level's part of the CSR cells is in `g` what it is in `f`, but for MPRV, which SRET clears (R517). -/
structure CsrFile.SameMachineLevel (f g : CsrFile) : Prop where
  medeleg : g.medeleg = f.medeleg
  mideleg : g.mideleg = f.mideleg
  mtvec : g.mtvec = f.mtvec
  mepc : g.mepc = f.mepc
  mcause : g.mcause = f.mcause
  mtval : g.mtval = f.mtval
  mscratch : g.mscratch = f.mscratch
  mstatusMie : g.mstatus.mie = f.mstatus.mie
  mstatusMpie : g.mstatus.mpie = f.mstatus.mpie
  mstatusMpp : g.mstatus.mpp = f.mstatus.mpp
  mie : g.mie &&& ~~~f.mideleg = f.mie &&& ~~~f.mideleg
  mip : g.mip &&& ~~~f.mideleg = f.mip &&& ~~~f.mideleg

theorem CsrFile.SameMachineLevel.refl (f : CsrFile) : f.SameMachineLevel f where
  medeleg := rfl
  mideleg := rfl
  mtvec := rfl
  mepc := rfl
  mcause := rfl
  mtval := rfl
  mscratch := rfl
  mstatusMie := rfl
  mstatusMpie := rfl
  mstatusMpp := rfl
  mie := rfl
  mip := rfl

/-- A write of a CSR of S keeps the machine level's part, MPRV included: `sstatus` is a view without the fields of M, and
`sie` and `sip` pass through `mideleg` (R81, R84). -/
theorem CsrFile.write_supervisor (f : CsrFile) (p : Params) (v : Word) {c : Csr} (hc : c ∈ supervisorCsrs) :
    f.SameMachineLevel (f.write p v c) ∧ (f.write p v c).mstatus.mprv = f.mstatus.mprv := by
  have keep := SameMachineLevel.refl f
  cases c
  case sie => exact ⟨{ keep with mie := masked_undelegated .. }, rfl⟩
  case sip => exact ⟨{ keep with mip := masked_undelegated .. }, rfl⟩
  case sstatus | stvec | sscratch | sepc | scause | stval | satp => exact ⟨{ keep with }, rfl⟩
  all_goals exact absurd hc (by decide)

theorem returnS_sameMachineLevel (s : State) : s.csr.SameMachineLevel s.returnS.csr :=
  { CsrFile.SameMachineLevel.refl s.csr with }

/-- In U nothing but a trap reaches the CSRs or the mode. -/
theorem exec_user {i : Instr} {s t : State} (hp : s.priv = .u) (h : exec i s = .next t) :
    Trapped s t ∨ (t.csr = s.csr ∧ t.priv = .u) := by
  rcases exec_csrs_mode h with h | ⟨-, hpriv, h | ⟨csr, w, c, v, hc, -⟩⟩ | ⟨-, hm, -⟩ | ⟨-, hu, -⟩
  · exact .inl h
  · exact .inr ⟨h, hpriv.trans hp⟩
  · exact absurd hp (csrCheck_mode hc).1
  · rw [hp] at hm; cases hm
  · exact absurd hp hu

/-- In S nothing but a trap reaches the machine level's part of the CSRs, SRET's clearing of MPRV apart. -/
theorem exec_supervisor {i : Instr} {s t : State} (hp : s.priv = .s) (h : exec i s = .next t) :
    Trapped s t ∨ (s.csr.SameMachineLevel t.csr
      ∧ t.csr.mstatus.mprv = if i = .sret then false else s.csr.mstatus.mprv) := by
  rcases exec_csrs_mode h with h | ⟨hi, -, h | ⟨csr, w, c, v, hc, h⟩⟩ | ⟨-, hm, -⟩ | ⟨hi, -, rfl⟩
  · exact .inl h
  · rw [h, if_neg hi]; exact .inr ⟨.refl _, rfl⟩
  · rw [h, if_neg hi]; exact .inr (s.csr.write_supervisor _ _ ((csrCheck_mode hc).2 hp))
  · rw [hp] at hm; cases hm
  · rw [if_pos hi]; exact .inr ⟨returnS_sameMachineLevel s, rfl⟩

/-- Settles O58: an instruction reaches the CSRs by a CSR instruction or a return alone; U may use neither, and those of S
keep the machine level's part. -/
theorem lowerModesKeepMachineState : Obligations.LowerModesKeepMachineState := by
  unfold Obligations.LowerModesKeepMachineState
  refine fun i s t h => ⟨fun hp => exec_user hp h, fun hp => (exec_supervisor hp h).imp_right ?_⟩
  rintro ⟨keep, mprv⟩
  refine ⟨?_, keep.mstatusMie, keep.mstatusMpie, keep.mstatusMpp, mprv, keep.mie, keep.mip⟩
  simp only [List.forall_mem_cons, List.not_mem_nil, false_imp_iff, implies_true, and_true]
  exact ⟨keep.medeleg, keep.mideleg, keep.mtvec, keep.mepc, keep.mcause, keep.mtval, keep.mscratch⟩

end Sys2Proof.Machine
end

section
/-! SUPPORT. Fences, environment calls, trap return, WFI and SFENCE.VMA (spec/46_system.md R510 to R519), and the flush of
the TLB by a write of `satp` (spec/10_state.md R91). -/

namespace Sys2Proof.Machine

open Sys2Proof

/-! ### The mode an instruction needs (R16) -/

theorem Priv.rank_s_le_of_ne_u {q : Priv} (h : q ≠ .u) : Priv.rank .s ≤ Priv.rank q := by
  cases q with
  | u => exact absurd rfl h
  | s | m => decide

theorem Priv.rank_lt_m_of_ne_m {q : Priv} (h : q ≠ .m) : Priv.rank q < Priv.rank .m := by
  cases q with
  | m => exact absurd rfl h
  | u | s => decide

/-- A privileged instruction above U, where S is enough. -/
theorem privileged_s_of_ne_u {i : Instr} {r : Result} {s : State} (h : s.priv ≠ .u) : privileged .s i r s = r :=
  privileged_of_le (Priv.rank_s_le_of_ne_u h)

/-- A privileged instruction in U raises with its own bits (R621). -/
theorem privileged_s_of_u {i : Instr} {r : Result} {s : State} (h : s.priv = .u) :
    privileged .s i r s = .next (s.excState .illegalInstruction (encode i).bits) :=
  privileged_of_lt (by rw [h]; decide)

/-! ### ECALL and EBREAK (R512, R513) -/

theorem exec_ecall_of_priv {s : State} {q : Priv} (h : s.priv = q) :
    exec .ecall s = .next (s.excState (ecallExc q) 0#64) := by rw [← h]; rfl

/-- Settles O11: ECALL raises by the mode, and both encodings of EBREAK are one operation. -/
theorem ecallEbreakTrap : Obligations.EcallEbreakTrap := by
  unfold Obligations.EcallEbreakTrap
  exact ⟨fun _ => exec_ecall_of_priv, fun _ => exec_ecall_of_priv, fun _ => exec_ecall_of_priv, exec_ebreak, exec_cEbreak⟩

/-! ### The returns (R515 to R518) -/

theorem exec_mret_of_m {s : State} (h : s.priv = .m) : exec .mret s = .next s.returnM :=
  (exec_mret s).trans (privileged_of_le (by rw [h]))

theorem exec_sret_of_ne_u {s : State} (h : s.priv ≠ .u) : exec .sret s = .next s.returnS :=
  (exec_sret s).trans (privileged_s_of_ne_u h)

/-- MRET keeps MPRV only where it returns to M (R516). -/
theorem returnM_mprv (s : State) :
    s.returnM.csr.mstatus.mprv = if s.csr.mstatus.mpp = .m then s.csr.mstatus.mprv else false := by
  split <;> simp [State.returnM, *]

/-- Settles O12: in the mode it needs, a return has its effect. -/
theorem returnFromTrap : Obligations.ReturnFromTrap := by
  unfold Obligations.ReturnFromTrap
  refine ⟨fun s h => ?_, fun s h => exec_sret_of_ne_u h⟩
  rw [exec_mret_of_m h, ← returnM_mprv]
  rfl

/-- SPP tells the two modes below M apart (R517, R640). -/
theorem spp_mode {q : Priv} (h : q ≠ .m) : (if decide (q = .s) = true then Priv.s else .u) = q := by
  cases q with
  | m => exact absurd rfl h
  | u | s => rfl

/-- Settles O13: the entry saves what the return restores, and an aligned pc is saved as it is. -/
theorem losslessReturn : Obligations.LosslessReturn := by
  unfold Obligations.LosslessReturn
  refine ⟨fun s u intr code tval hpc hu hepc hst => ⟨_, exec_mret_of_m hu, ?_, hepc.trans hpc, ?_, rfl, rfl⟩,
    fun s u intr code tval hpc hs hu hepc hst =>
      ⟨_, exec_sret_of_ne_u (by rw [hu]; decide), ?_, hepc.trans hpc, ?_, rfl, rfl⟩⟩
  · exact congrArg Mstatus.mpp hst
  · exact congrArg Mstatus.mpie hst
  · rw [returnS_priv, hst]
    exact spp_mode hs
  · exact congrArg Mstatus.spie hst

/-! ### Privilege (R510, R511, R514, R621) -/

/-- The bits of SFENCE.VMA (R231). -/
theorem encode_sfenceVma_bits (rs1 rs2 : Reg) : (encode (.sfenceVma rs1 rs2)).bits =
    BitVec.ofNat 64 (0x12000073 + rs2.toNat * 2 ^ 20 + rs1.toNat * 2 ^ 15) := by
  have own : (encode (.sfenceVma rs1 rs2)).bits = BitVec.ofNat 64 (rType 9#7 rs2 rs1 0#3 0#5 0x73#7).toNat :=
    (BitVec.ofNat_toNat ..).symm
  rw [own, rType_toNat]
  congr 1
  simp only [BitVec.toNat_ofNat]
  omega

/-- Settles O14: each privileged instruction names the mode it needs, and below it raises with its own encoding. -/
theorem systemPrivilege : Obligations.SystemPrivilege := by
  unfold Obligations.SystemPrivilege
  refine ⟨fun s _ _ _ _ _ => exec_fence _ _ _ _ _ s, fun s _ _ _ => exec_fenceI _ _ _ s, fun s h => ?_,
    fun s h => ?_, fun s h => ?_, fun s h => ?_, fun s rs1 rs2 h => ?_⟩
  · exact (exec_wfi s).trans (privileged_s_of_ne_u h)
  · exact (exec_wfi s).trans (privileged_s_of_u h)
  · exact (exec_mret s).trans (privileged_of_lt (Priv.rank_lt_m_of_ne_m h))
  · exact (exec_sret s).trans (privileged_s_of_u h)
  · rw [← encode_sfenceVma_bits]
    exact (exec_sfenceVma ..).trans (privileged_s_of_u h)

/-! ### The entries of an SFENCE.VMA (R519) -/

theorem vpnOf_toNat (x : Xlen) (va : Word) : (vpnOf x va).toNat = va.toNat / 2 ^ 12 % 2 ^ (vpnBits x * levels x) := by
  cases x with
  | rv64 => exact toNat_ext va 12 27
  | rv32 =>
    rw [vpnOf, BitVec.toNat_setWidth, toNat_ext]
    exact Nat.mod_eq_of_lt ((Nat.mod_lt _ (by decide)).trans (by decide))

theorem sameVpn_iff (x : Xlen) (level : Nat) (a b : BitVec 27) : sameVpn x level a b = true ↔
    a.toNat / 2 ^ (vpnBits x * level) = b.toNat / 2 ^ (vpnBits x * level) := by
  rw [sameVpn, beq_iff_eq, ← BitVec.toNat_inj, BitVec.toNat_ushiftRight, BitVec.toNat_ushiftRight,
    Nat.shiftRight_eq_div_pow, Nat.shiftRight_eq_div_pow, Nat.mul_comm level]

/-- ASIDLEN (R9) -/
def asidBits : Xlen → Nat
  | .rv32 => 9
  | .rv64 => 16

theorem asidOf_toNat (x : Xlen) (v : Word) : (asidOf x v).toNat = v.toNat % 2 ^ asidBits x := by
  cases x with
  | rv64 => exact (toNat_ext v 0 16).trans (by rw [Nat.pow_zero, Nat.div_one]; rfl)
  | rv32 =>
    rw [asidOf, BitVec.toNat_setWidth, toNat_ext, Nat.pow_zero, Nat.div_one]
    exact Nat.mod_eq_of_lt ((Nat.mod_lt _ (by decide)).trans (by decide))

theorem sfenceSelects_iff (s : State) (rs1 rs2 : Reg) (e : TlbEntry) :
    sfenceSelects s rs1 rs2 e = true ↔ FenceSelects s rs1 rs2 e := by
  have asid : (e.asid == asidOf s.params.xlen (s.reg rs2)) = true ↔
      e.asid.toNat = (s.reg rs2).toNat % 2 ^ asidBits s.params.xlen := by
    rw [beq_iff_eq, ← BitVec.toNat_inj, asidOf_toNat]
  simp only [sfenceSelects, Bool.and_eq_true, Bool.or_eq_true, decide_eq_true_eq, Bool.not_eq_true', sameVpn_iff,
    vpnOf_toNat, asid]
  rfl

/-- SFENCE.VMA above U (R519). -/
theorem exec_sfenceVma_of_ne_u {s : State} (rs1 rs2 : Reg) (h : s.priv ≠ .u) : exec (.sfenceVma rs1 rs2) s =
    .next { s with tlb := s.tlb.invalidate (sfenceSelects s rs1 rs2), pc := s.npc 4 } := by
  rw [exec_sfenceVma, privileged_s_of_ne_u h]
  exact congrArg (fun v : Word => Host.Outcome.next
    { s with tlb := s.tlb.invalidate (sfenceSelects s rs1 rs2), pc := v }) (npc_fits s 4)

/-- An invalidation turns off the entries it selects and changes no other. -/
theorem invalidate_forall₂ (t : Tlb) (f : TlbEntry → Bool) (it : Intent) :
    List.Forall₂ (fun e g : TlbEntry => (f e = true → g = { e with valid := false }) ∧ (¬ f e = true → g = e))
      (t.entries it) ((t.invalidate f).entries it) := by
  rw [entries_invalidate, List.forall₂_map_right_iff, List.forall₂_same]
  exact fun e _ => ⟨fun h => if_pos h, fun h => if_neg h⟩

/-! ### The flush by a write of `satp` (R91) -/

theorem not_valid_of_mem_flush {t : Tlb} {it : Intent} {e : TlbEntry} (h : e ∈ t.flush.entries it) : e.valid = false := by
  rw [Tlb.flush, entries_invalidate, List.mem_map] at h
  obtain ⟨o, -, rfl⟩ := h
  rfl

/-- `satp` may be written in every mode above U (R490). -/
theorem satp_legal {s : State} (h : s.priv ≠ .u) : CsrLegal s 0x180#12 True .satp :=
  ⟨by decide, Priv.rank_s_le_of_ne_u h, fun hr => absurd hr.2 (by decide)⟩

theorem csrOp_satp_flushes {i : Instr} {rd : Reg} {new : Word → Word} {s t : State} (hp : s.priv ≠ .u)
    (h : csrOp i rd 0x180#12 true new s = .next t) : t.tlb = s.tlb.flush := by
  have legal := csrOp_of_legal (i := i) (rd := rd) (new := new) (satp_legal hp)
  cases h.symm.trans legal
  simp [Tlb.afterCsrWrite]

/-- Settles O15: SFENCE.VMA invalidates by its selection, and a CSR instruction that writes `satp` flushes. -/
theorem tlbInvalidation : Obligations.TlbInvalidation := by
  unfold Obligations.TlbInvalidation
  refine ⟨fun s rs1 rs2 hp => ⟨_, exec_sfenceVma_of_ne_u rs1 rs2 hp, rfl, rfl, fun it => ?_⟩,
    fun s t rd rs1 uimm i hp hi h it e he => ?_⟩
  · simp only [← sfenceSelects_iff]
    exact invalidate_forall₂ ..
  · have form : ∃ new, exec i s = csrOp i rd 0x180#12 true new s := by
      rcases hi with rfl | rfl | ⟨hr, rfl | rfl⟩ | ⟨hr, rfl | rfl⟩
      · exact ⟨_, exec_csrrw ..⟩
      · exact ⟨_, exec_csrrwi ..⟩
      · exact ⟨_, by rw [exec_csrrs, decide_eq_true hr]⟩
      · exact ⟨_, by rw [exec_csrrc, decide_eq_true hr]⟩
      · exact ⟨_, by rw [exec_csrrsi, decide_eq_true hr]⟩
      · exact ⟨_, by rw [exec_csrrci, decide_eq_true hr]⟩
    obtain ⟨new, hw⟩ := form
    rw [csrOp_satp_flushes hp (hw ▸ h)] at he
    exact not_valid_of_mem_flush he

end Sys2Proof.Machine
end

section
/-! SUPPORT. The compressed immediate forms (spec/47_compressed.md R541 to R570) and the compressed floating-point forms
(R585). -/

namespace Sys2Proof.Machine

open Sys2Proof

/-! ### Immediates with implied low zero bits (R241) -/

/-- A sign-extended immediate with `k` implied low zero bits is `2 ^ k` times its value. -/
theorem signExtend_append_zeros {n : Nat} (imm : BitVec n) (k : Nat) (hn : n ≠ 0) :
    (imm ++ 0#k).signExtend 64 = BitVec.ofInt 64 ((2 ^ k : Nat) * imm.toInt) := by
  have scaled : (imm ++ 0#k).toInt = (2 ^ k : Nat) * imm.toInt := by
    rw [BitVec.toInt_append, if_neg (by simpa using hn)]
    simp [Int.mul_comm]
  rw [BitVec.signExtend, scaled]

theorem immC16sp_eq_ofInt (imm : BitVec 6) : immC16sp imm = BitVec.ofInt 64 (16 * imm.toInt) :=
  signExtend_append_zeros imm 4 (by decide)

theorem immCLui_eq_ofInt (imm : BitVec 6) : immCLui imm = BitVec.ofInt 64 (4096 * imm.toInt) :=
  signExtend_append_zeros imm 12 (by decide)

/-- An addition of an immediate writes the address that a load with that offset computes (R302, R420). -/
theorem immOp_addOp (n : Nat) (rd rs1 : Reg) (imm : Word) (s : State) :
    immOp n addOp rd rs1 imm s = writeNext n rd (s.addr rs1 imm) s := by
  rw [State.addr, truncX_add]; rfl

/-- Settles O22: each form is the operation of its expansion with 2 for the length, on an immediate that holds its
scaled integer. -/
theorem compressedImmediateResults : Obligations.CompressedImmediateResults := by
  unfold Obligations.CompressedImmediateResults
  intro s rd rd' imm uimm
  refine ⟨?_, exec_cNop imm s, ?_, ?_, ?_, ?_, ?_, ?_, fun h => ?_⟩
  · rw [exec_cAddi4spn, immOp_addOp]
    exact writeNext_of_eq (addr_append_zeros s 2#5 uimm)
  · exact writeNext_of_eq (atXlen_addOp_ofInt ..)
  · exact writeNext_of_truncX (atWord_addOp_ofInt ..)
  · exact writeNext_of_truncX rfl
  · rw [exec_cAddi16sp, immOp_addOp, immC16sp_eq_ofInt]
    exact writeNext_of_eq (addr_ofInt ..)
  · rw [exec_cLui, immCLui_eq_ofInt]
    exact writeNext_of_truncX rfl
  · exact immOp_bitwise (fun _ _ => BitVec.setWidth_and) ..
  · have amount := shamt_mod imm (by decide) h
    refine ⟨writeNext_of_eq ?_, writeNext_of_eq ?_, writeNext_of_eq ?_⟩
    · rw [atXlen_sllOp, amount]
    · rw [atXlen_srlOp, amount]
    · rw [atXlen_sraOp, amount]

/-! ### The floating-point forms (R585) -/

theorem noFpu_dataAccess {i : Instr} (h : i.shape = .noFpu) (s : State) : i.dataAccess s = none := by
  refine Option.eq_none_iff_forall_ne_some.2 fun a ha => ?_
  simpa [h] using dataAccess_shape ha

theorem noFpu_ilen {i : Instr} (h : i.shape = .noFpu) : (encode i).ilen = 2 := by
  cases i <;> first | exact Shape.noConfusion h | rfl

/-- Settles O43: the forms of this shape are parcels, raise before any access, and are not among the forms that make one. -/
theorem compressedFloatIsIllegal : Obligations.CompressedFloatIsIllegal := by
  unfold Obligations.CompressedFloatIsIllegal
  exact ⟨fun s i h => ⟨exec_noFpu h s, noFpu_dataAccess h s, noFpu_ilen h⟩, rfl, by decide⟩

end Sys2Proof.Machine
end

section
/-! SUPPORT. The trap entry (spec/60_exceptions.md R620, R640 to R645) with its fields, its target and its vector as
integers, the halt it requests (spec/70_reset_and_hazards.md R697), and the mode after an instruction (R655). -/

namespace Sys2Proof.Machine

open Sys2Proof

/-! ### The cause (R87, R620) -/

/-- The Interrupt bit stands above every code, so the cause is a sum. -/
theorem causeWord_eq_ofNat (x : Xlen) (intr : Bool) {code : Nat} (h : code < 16) :
    causeWord x intr code = BitVec.ofNat 64 ((if intr then 2 ^ (x.bits - 1) else 0) + code) := by
  cases intr
  · simp [causeWord, bitAt]
  · have below : code < 2 ^ (x.bits - 1) := by cases x <;> simp only [Xlen.bits] <;> omega
    have bit : bitAt (x.bits - 1) true = BitVec.ofNat 64 (2 ^ (x.bits - 1)) := by cases x <;> rfl
    have sum : 2 ^ (x.bits - 1) + code = 2 ^ (x.bits - 1) ||| code := by
      simpa using Nat.two_pow_add_eq_or_of_lt below 1
    rw [causeWord, bit, ← BitVec.ofNat_or, if_pos rfl, sum]

/-- Settles O9: the entry writes these fields, and the cause is a sum. -/
theorem trapEntryFields : Obligations.TrapEntryFields := by
  unfold Obligations.TrapEntryFields
  intro s intr code tval h
  have cause := causeWord_eq_ofNat s.params.xlen intr h
  exact ⟨⟨rfl, cause, rfl, rfl, rfl, rfl, rfl, rfl, rfl, rfl, rfl, rfl, rfl⟩,
    ⟨rfl, cause, rfl, rfl, rfl, rfl, rfl, rfl, rfl, rfl, rfl, rfl, rfl⟩⟩

/-! ### The target (R645) -/

theorem excTarget_eq (s : State) (e : Exc) :
    s.excTarget e = if s.csr.medeleg.toNat / 2 ^ e.code % 2 = 1 ∧ s.priv ≠ .m then .s else .m := by
  simp only [State.excTarget, ← entryBit_iff, entryBit]

theorem Priv.rank_le_m (q : Priv) : Priv.rank q ≤ Priv.rank .m := by cases q <;> decide

theorem Priv.rank_le_s_of_ne_m {q : Priv} (h : q ≠ .m) : Priv.rank q ≤ Priv.rank .s := by
  cases q with
  | m => exact absurd rfl h
  | u | s => decide

/-- An exception is delegated to S from S and U alone, so it never lowers the mode. -/
theorem rank_le_excState (s : State) (e : Exc) (tval : Word) :
    Priv.rank s.priv ≤ Priv.rank (s.excState e tval).priv := by
  rw [excState_priv, State.excTarget]
  split
  next h => exact Priv.rank_le_s_of_ne_m h.2
  next => exact Priv.rank_le_m _

/-! ### The vector (R85, R642) -/

theorem tvecBase_toNat (v : Word) : (tvecBase v).toNat = v.toNat / 4 * 4 := by
  have shifts : tvecBase v = v >>> 2 <<< 2 := by
    apply BitVec.eq_of_getLsbD_eq
    intro i hi
    rw [tvecBase, BitVec.getLsbD_and, BitVec.getLsbD_not, BitVec.getLsbD_ofNat, BitVec.getLsbD_shiftLeft,
      BitVec.getLsbD_ushiftRight]
    rcases i with _ | _ | i <;> simp [hi, Nat.add_comm 2, Nat.testBit_succ]
  rw [shifts, BitVec.toNat_shiftLeft, BitVec.toNat_ushiftRight, Nat.shiftLeft_eq, Nat.shiftRight_eq_div_pow]
  have := v.isLt
  omega

theorem tvecVectored_iff (v : Word) : v.extractLsb' 0 2 = 1#2 ↔ v.toNat % 4 = 1 := by
  rw [← BitVec.toNat_inj, toNat_ext, BitVec.toNat_ofNat]
  omega

theorem truncX_toNat (x : Xlen) (v : Word) : (truncX x v).toNat = v.toNat % 2 ^ x.bits := by
  have bits : x.bits ≤ 64 := by cases x <;> decide
  rw [truncX_eq_setWidth, BitVec.toNat_setWidth_of_le bits, BitVec.toNat_setWidth]

theorem trapVector_toNat (p : Params) (tvec : Word) (intr : Bool) (code : Nat) :
    (trapVector p tvec intr code).toNat =
      if tvec.toNat % 4 = 1 ∧ (intr = true ∨ p.vectoredSync = true) then
        (tvec.toNat / 4 * 4 + 4 * code) % 2 ^ 64 % 2 ^ p.xlen.bits
      else tvec.toNat / 4 * 4 := by
  simp only [trapVector, tvecVectored_iff, apply_ite BitVec.toNat, truncX_toNat, BitVec.toNat_add, BitVec.toNat_ofNat,
    Nat.add_mod_mod, tvecBase_toNat]

/-! ### The halt of an entry (R697) -/

theorem tvecBase_eq_zero_iff (v : Word) : tvecBase v = 0#64 ↔ v.toNat / 4 = 0 := by
  rw [← BitVec.toNat_inj, tvecBase_toNat, BitVec.toNat_zero]
  omega

theorem enterTrap_haltRequested_iff (s : State) (intr : Bool) (code : Nat) (tval : Word) (g : TrapTarget) :
    (s.enterTrap intr code tval g).haltRequested = true ↔
      s.haltRequested = true ∨ (s.tvecOf g).toNat / 4 = 0
        ∨ (intr = false ∧ (s.enterTrap intr code tval g).pc = epcLegal s.params s.pc) := by
  simp only [State.enterTrap, trapHalts, Bool.or_eq_true, Bool.and_eq_true, Bool.not_eq_true', decide_eq_true_eq,
    tvecBase_eq_zero_iff]

/-- Settles O10: the code table, the delegation bit and the vector as integers, and the two halts of an entry. -/
theorem trapTargetVectorHalt : Obligations.TrapTargetVectorHalt := by
  unfold Obligations.TrapTargetVectorHalt
  exact ⟨by decide, excTarget_eq, rank_le_excState, trapVector_toNat, enterTrap_haltRequested_iff⟩

/-! ### The mode after an instruction (R516, R517, R655) -/

theorem Trapped.rank_le {s t : State} (h : Trapped s t) : Priv.rank s.priv ≤ Priv.rank t.priv := by
  obtain ⟨tlb, e, tval, -, rfl⟩ := h
  exact rank_le_excState { s with tlb := tlb } e tval

/-- Settles O57: of everything an instruction can do, only a trap entry and the two returns write the mode. -/
theorem modeChangesOnlyByTrapOrReturn : Obligations.ModeChangesOnlyByTrapOrReturn := by
  unfold Obligations.ModeChangesOnlyByTrapOrReturn
  intro i s t h
  rcases exec_next h with h | ⟨-, v, rfl⟩ | ⟨-, t, -, -, rfl⟩ | ⟨-, ⟨t, -, -, rfl⟩ | rfl⟩ | ⟨-, va, n, v, -, rfl⟩
    | ⟨-, va, g, v, -, rfl⟩ | ⟨-, va, n, pas, v, v', -, -, -, rfl⟩ | ⟨-, -, rfl⟩ | ⟨-, csr, w, c, v, -, -, rfl⟩ | ⟨-, rfl⟩
    | ⟨-, f, -, rfl⟩ | ⟨hi, hp, rfl⟩ | ⟨hi, hp, rfl⟩
  case inl => exact .inl ⟨h, h.rank_le⟩
  case inr.inr.inr.inr.inr.inr.inr.inr.inl => cases w <;> exact .inr (.inl (setReg_priv ..))
  case inr.inr.inr.inr.inr.inr.inr.inr.inr.inr.inr.inl => exact .inr (.inr (.inl ⟨hi, hp, rfl⟩))
  case inr.inr.inr.inr.inr.inr.inr.inr.inr.inr.inr.inr => exact .inr (.inr (.inr ⟨hi, hp, rfl⟩))
  all_goals exact .inr (.inl (by simp))

end Sys2Proof.Machine
end

section
/-! SUPPORT. The boundary of a step (spec/30_encoding.md R220, spec/60_exceptions.md R634): the halted hart, the interrupt
that is taken; and the next state that every step has (R713). -/

namespace Sys2Proof.Machine

open Sys2Proof

/-! ### The candidates (R634) -/

/-- The test by which `firstPending` picks a code. -/
def State.pendingAt (s : State) (deleg : Bool) (c : Nat) : Bool :=
  (s.csr.mip &&& s.csr.mie).getLsbD c && (s.csr.mideleg.getLsbD c == deleg)

theorem firstPending_eq_find (s : State) (deleg : Bool) :
    s.firstPending deleg = interruptOrder.find? (s.pendingAt deleg) := rfl

theorem pendingAt_iff {s : State} {deleg : Bool} {c : Nat} (hc : c ∈ interruptOrder) :
    s.pendingAt deleg c = true ↔ Candidate s deleg c := by
  have member : c ∈ [11, 3, 7, 9, 1, 5] := hc
  simp only [State.pendingAt, Candidate, BitVec.getLsbD_and, Bool.and_eq_true, beq_iff_eq, member, true_and, and_assoc]

theorem firstPending_eq_none {s : State} {deleg : Bool} (h : ∀ d, ¬ Candidate s deleg d) :
    s.firstPending deleg = none := by
  rw [firstPending_eq_find, List.find?_eq_none]
  exact fun d hd hp => h d ((pendingAt_iff hd).1 hp)

/-- The code picked is the first candidate of the order. -/
theorem firstPending_eq_some {s : State} {deleg : Bool} {pre post : List Nat} {c : Nat}
    (ho : interruptOrder = pre ++ c :: post) (hc : Candidate s deleg c) (hpre : ∀ d ∈ pre, ¬ Candidate s deleg d) :
    s.firstPending deleg = some c := by
  have mem : ∀ d ∈ pre ++ c :: post, d ∈ interruptOrder := fun d hd => ho ▸ hd
  rw [firstPending_eq_find, List.find?_eq_some_iff_append]
  refine ⟨(pendingAt_iff (mem c (by simp))).2 hc, pre, post, ho, fun d hd => ?_⟩
  have skipped : ¬ s.pendingAt deleg d = true := fun hp =>
    hpre d hd ((pendingAt_iff (mem d (List.mem_append_left _ hd))).1 hp)
  simpa using skipped

/-! ### The interrupt taken (R634) -/

theorem mOn_iff (s : State) : s.mOn = true ↔ s.priv ≠ .m ∨ s.csr.mstatus.mie = true := by
  simp [State.mOn]

theorem sOn_iff (s : State) : s.sOn = true ↔ s.priv = .u ∨ (s.priv = .s ∧ s.csr.mstatus.sie = true) := by
  simp [State.sOn]

/-- No interrupt of one level is taken: the level is off, or none of its codes is a candidate. -/
theorem level_eq_none {s : State} {on deleg : Bool} (h : on = true → ∀ d, ¬ Candidate s deleg d) :
    (if on then s.firstPending deleg else none) = none := by
  cases on
  · rfl
  · exact firstPending_eq_none (h rfl)

theorem interruptPending_m {s : State} {c : Nat} (hon : s.mOn = true) (hc : s.firstPending false = some c) :
    s.interruptPending = some (c, .m) := by
  simp [State.interruptPending, hon, hc]

theorem interruptPending_s {s : State} {c : Nat} (hm : s.mOn = true → ∀ d, ¬ Candidate s false d) (hon : s.sOn = true)
    (hc : s.firstPending true = some c) : s.interruptPending = some (c, .s) := by
  simp [State.interruptPending, level_eq_none hm, hon, hc]

theorem interruptPending_none {s : State} (hm : s.mOn = true → ∀ d, ¬ Candidate s false d)
    (hs : s.sOn = true → ∀ d, ¬ Candidate s true d) : s.interruptPending = none := by
  simp [State.interruptPending, level_eq_none hm, level_eq_none hs]

/-! ### The step (R220) -/

theorem step_of_boundary {s t : State} (h : s.boundary = some t) : step s = .next t := by
  unfold step; rw [h]

theorem boundary_halted {s : State} (h : s.haltRequested = true) : s.boundary = some s := if_pos h

theorem boundary_interrupt {s : State} {c : Nat} {g : TrapTarget} (hh : s.haltRequested = false)
    (hi : s.interruptPending = some (c, g)) : s.boundary = some (s.takeInterrupt c g) := by
  simp [State.boundary, hh, hi]

/-- Settles O8: the boundary picks the first candidate of the order, M before S. -/
theorem stepBoundary : Obligations.StepBoundary := by
  unfold Obligations.StepBoundary
  simp only [← mOn_iff, ← sOn_iff]
  refine ⟨fun s hh => step_of_boundary (boundary_halted hh), fun s pre post c hh ho hc hpre hon => ?_,
    fun s pre post c hh hm ho hc hpre hon => ?_, fun s hh hm hs => boundary_none hh (interruptPending_none hm hs)⟩
  · exact step_of_boundary (boundary_interrupt hh (interruptPending_m hon (firstPending_eq_some ho hc hpre)))
  · exact step_of_boundary (boundary_interrupt hh (interruptPending_s hm hon (firstPending_eq_some ho hc hpre)))

/-! ### Every step has a next state (R713) -/

theorem Answers.settle {r : Result} (h : Answers r) (s : State) : Answers (s.settle r) := by
  obtain ⟨t, rfl⟩ := h
  exact .next _

theorem step_answers (s : State) : Answers (step s) := by
  unfold step
  split
  · exact .next _
  · split
    · exact (Answers.raise ..).settle s
    · exact (exec_answers ..).settle s

/-- Settles O56: the step answers at its boundary, with the trap of its fetch, or with the answer of an instruction. -/
theorem everyStepHasANextState : Obligations.EveryStepHasANextState := by
  unfold Obligations.EveryStepHasANextState
  exact ⟨step_answers, exec_answers⟩

end Sys2Proof.Machine
end
